-- ==== Sys2Proof/Word.lean ====
section
/-! DEFINITION. The word types and the four-channel pixel of quadtree_encoder_fsm. -/

namespace Sys2Proof

/-- One byte: a channel of a pixel, a pixel token, a cell of pixel memory. -/
abbrev Byte := BitVec 8

/-- One host register, and the data of one host access (R21, R104). -/
abbrev Word := BitVec 32

/-- The four byte channels of a pixel, under the source's names (R17). -/
inductive Channel where
  | x | y | z | a
deriving DecidableEq, Repr

/-- A pixel: four independent bytes (R17). -/
structure Pixel where
  x : Byte
  y : Byte
  z : Byte
  a : Byte
deriving DecidableEq, Repr, Inhabited

/-- The byte of one channel: `p.c` of the rules. -/
def Pixel.get (q : Pixel) : Channel → Byte
  | .x => q.x
  | .y => q.y
  | .z => q.z
  | .a => q.a

/-- An image as the rules read it: `P(x, y)` or `Q(x, y)` (R12). -/
abbrev Image := Nat → Nat → Pixel

end Sys2Proof
end

