-- ==== Sys2Proof/Config.lean ====
section
/-! DEFINITION. What an implementation or the platform fixes: the build parameters of R8, the abstract cache model of
R231, and the free values: constants with no body, so that no proof can see what they are. -/

namespace Sys2Proof

/-- The build and platform parameters of R8. The spec has a model take them as an argument; here they are plain data that
`State` carries and no step changes, so that a statement about every state is about every build (log entry 1). -/
structure Build where
  /-- COORD_W, bits of a coordinate (R8). -/
  coordW : Nat
  /-- ADDR_W, bits of a pixel-memory address (R8). -/
  addrW : Nat
  /-- INDEXBITS_MAX, the width of the index port's data bus (R8, R101). -/
  indexbitsMax : Nat
  /-- MAX_HW_DEPTH, the deepest node the traversal stack can hold (R8, R289). -/
  maxHwDepth : Nat
  /-- MEM_ERR, the byte addresses whose read returns a bus error (R8, R72). -/
  memErr : List Nat
  /-- Whether the host bus also signals an error for a refused access (R333; 93_implementation_defined.md row 11). -/
  reportsRefused : Bool
deriving DecidableEq, Repr

/-- The reference values of R8. The bus report has none: DESIGN CHOICE `false` (log entry 10). -/
def Build.reference : Build :=
  { coordW := 16, addrW := 32, indexbitsMax := 16, maxHwDepth := 32, memErr := [], reportsRefused := false }

/-- The legal ranges of R8. -/
abbrev Build.Legal (b : Build) : Prop :=
  (1 ≤ b.coordW ∧ b.coordW ≤ 31) ∧ (3 ≤ b.addrW ∧ b.addrW ≤ 32) ∧ b.indexbitsMax ≤ 32 ∧ b.maxHwDepth ≤ 255

/-- A pass, which is also the format of its payloads (R171, R158). -/
inductive Pass where
  | full | luma | chroma
deriving DecidableEq, Repr

/-- The content key of a minimum-size block (R158). -/
structure Key where
  fmt : Pass
  w : Nat
  h : Nat
  bytes : List Byte
deriving DecidableEq, Repr

/-- The answer to one cache request (R230, R231). -/
inductive Resp where
  | hit (i : Nat)
  | inserted
  | error
deriving DecidableEq, Repr

/-- The abstract cache model of R231, over any type of cache states. -/
structure CacheModel (C : Type) where
  holds : C → Nat → Option Key
  lookup : C → Key → C × Resp
  add : C → Key → C
  touch : C → Nat → C

/-- The contract a cache model meets: R232 on HIT and R234 on INSERTED. (R233 holds of any function; R235 leaves the state
after ERROR open.) -/
structure CacheModel.Contract {C : Type} (M : CacheModel C) : Prop where
  hit : ∀ s k s' i, M.lookup s k = (s', .hit i) → M.holds s i = some k ∧ s' = M.touch s i
  inserted : ∀ s k s', M.lookup s k = (s', .inserted) → (∀ i, M.holds s i ≠ some k) ∧ s' = M.add s k

/-- What the IDX port carries at a transfer: the value zero-extended to the bus, and `idx_width` (R101, R108). -/
structure IdxBeat where
  data : Nat
  width : Nat
deriving DecidableEq, Repr

/-- The state of the attached cache as plain data (log entry 5): the content of its slots, the keys it answers with ERROR,
and whatever else it keeps (recency, free slots), which only the free functions below look at. -/
structure CacheState where
  slots : List (Nat × Key)
  failing : List Key
  policy : Nat
deriving DecidableEq, Repr, Inhabited

/-- FREE: the state an insertion leaves (R231 `add`; slot choice and eviction are the cache's own, R234). Log entry 5. -/
opaque Config.cacheAdd : CacheState → Key → CacheState

/-- FREE: the state a hit leaves (R231 `touch`). Log entry 5. -/
opaque Config.cacheTouch : CacheState → Nat → CacheState

/-- FREE: the state after an ERROR response, which R235 leaves unspecified. Log entry 6. -/
opaque Config.cacheAfterError : CacheState → Key → CacheState

/-- FREE: the pixel an unspecified pixel read returns, by draw and address (R325, R72). Log entry 11. -/
opaque Config.freePixel : Nat → Nat → Pixel

/-- FREE: what a decoder that reads the index stream with a width other than the tokens' gets: none where it runs past the end,
else the value it takes and how many tokens are behind it (R237; 93_implementation_defined.md row 16). Log entry 31. -/
opaque Config.misreadIdx : Nat → List IdxBeat → Option (Nat × Nat)

/-- FREE: whether a request outstanding at reset changed the cache (R321), by draw. Log entry 7. -/
opaque Config.freeBit : Nat → Bool

end Sys2Proof
end

