-- ==== Sys2Proof/Syntax.lean ====
section
/-! DEFINITION. The instructions: one constructor per row of spec/opcode_table.json, and the context a node symbol is
read in. -/

namespace Sys2Proof

/-- The 4 host operations (R130 to R133) and the 9 node symbols (R200 to R208). -/
inductive Instr where
  /-- REGWR, a register write: byte offset and value (R130). -/
  | regwr (off : BitVec 6) (v : Word)
  /-- REGRD, a register read: byte offset, and the data bits of the access, which nothing looks at (R131). -/
  | regrd (off : BitVec 6) (data : Word)
  /-- START: the reserved bits [31:2] and IRQ_EN, bit [1], of the CTRL write (R132). -/
  | start (rest : BitVec 30) (irqEn : Bool)
  /-- ACK: the value written to STATUS (R133). -/
  | ack (v : Word)
  /-- SKIP, reference reuse (R200). -/
  | skip
  /-- FLAT, the flat leaf (R201). -/
  | flat
  /-- QUAD, the four-way split (R202). -/
  | quad
  /-- SPLITX, the left/right split (R203). -/
  | splitx
  /-- SPLITY, the top/bottom split (R204). -/
  | splity
  /-- DEEP, the raw leaf at the depth ceiling (R205). -/
  | deep
  /-- LEAF, the minimum-size leaf without a cache (R206). -/
  | leaf
  /-- HIT, the minimum-size leaf found in the cache (R207). -/
  | hit
  /-- MISS, the minimum-size leaf not found in the cache (R208). -/
  | miss
deriving DecidableEq, Repr

/-- What tells symbols with one command part apart (R105, R110): REF_EN, CACHE_EN, `d = maxdepth`, `w > M`, `h > M`. -/
structure SymCtx where
  refEn : Bool
  cacheEn : Bool
  atCeiling : Bool
  wExceeds : Bool
  hExceeds : Bool
deriving DecidableEq, Repr

/-- Why bytes are not an instruction. -/
inductive DecodeError where
  /-- The number of bytes is neither that of a host access nor that of a lone symbol. -/
  | badLength
  /-- Bit 39 of the five bytes of a 39-bit host access is set. -/
  | padBitSet
  /-- The command bits end inside a symbol (R114, R255). -/
  | streamExhausted
  /-- A byte that stands for one symbol has bits above it. -/
  | excessBits
deriving DecidableEq, Repr

end Sys2Proof
end

