-- ==== Sys2Proof/WellFormed.lean ====
section
/-! DEFINITION. Which instructions an encoding exists for. -/

namespace Sys2Proof

/-- The table's START and ACK rows are REGWR's special cases (R130, opcode_table.json), so a REGWR that is one of them is
ill-formed: a write of CTRL with bit 0 set, and a write of STATUS. -/
def Instr.wf : Instr → Bool
  | .regwr off v => !(off == 0x00#6 && v.getLsbD 0) && !(off == 0x04#6)
  | .regrd _ _ | .start _ _ | .ack _
  | .skip | .flat | .quad | .splitx | .splity | .deep | .leaf | .hit | .miss => true

/-- A 32-bit access is legal at a 4-byte-aligned offset only (R21, R333). Others decode and are refused when they act. -/
def alignedOffset (off : BitVec 6) : Bool := off.extractLsb' 0 2 == 0#2

/-- The symbols a context admits: the context column of R105. -/
def SymCtx.admits (c : SymCtx) : Instr → Bool
  | .skip => c.refEn
  | .flat => true
  | .deep => c.atCeiling
  | .quad => !c.atCeiling && c.wExceeds && c.hExceeds
  | .splitx => !c.atCeiling && c.wExceeds && !c.hExceeds
  | .splity => !c.atCeiling && !c.wExceeds && c.hExceeds
  | .leaf => !c.atCeiling && !c.wExceeds && !c.hExceeds && !c.cacheEn
  | .hit | .miss => !c.atCeiling && !c.wExceeds && !c.hExceeds && c.cacheEn
  | .regwr _ _ | .regrd _ _ | .start _ _ | .ack _ => false

end Sys2Proof
end

