-- ==== Sys2Proof/Decode.lean ====
section
/-! DEFINITION. Decoding and encoding: the 39-bit host access (R104) and the command part of a node symbol (R105, R110). -/

namespace Sys2Proof

/-- Bit 38 of a host access: 1 for a write (R104). -/
def hostRw (w : BitVec 39) : Bool := w.getLsbD 38

/-- Bits [37:32]: the byte offset (R104). -/
def hostOffset (w : BitVec 39) : BitVec 6 := w.extractLsb' 32 6

/-- Bits [31:0]: the data (R104). -/
def hostData (w : BitVec 39) : Word := w.extractLsb' 0 32

/-- The host operation a 39-bit access is: every access is one (R104, R130 to R133, opcode_table.json). -/
def decodeHost (w : BitVec 39) : Instr :=
  if hostRw w then
    if hostOffset w = 0x00#6 ∧ (hostData w).getLsbD 0 = true then
      .start ((hostData w).extractLsb' 2 30) ((hostData w).getLsbD 1)
    else if hostOffset w = 0x04#6 then .ack (hostData w)
    else .regwr (hostOffset w) (hostData w)
  else .regrd (hostOffset w) (hostData w)

/-- A host access from its three parts (R104). -/
def hostWord (rw : Bool) (off : BitVec 6) (data : Word) : BitVec 39 := BitVec.ofBool rw ++ off ++ data

/-- The 39-bit access of a host operation (R104); none for a node symbol, which no host access carries. -/
def encodeHost : Instr → Option (BitVec 39)
  | .regwr off v => some (hostWord true off v)
  | .regrd off data => some (hostWord false off data)
  | .start rest irqEn => some (hostWord true 0x00#6 (rest ++ BitVec.ofBool irqEn ++ 1#1))
  | .ack v => some (hostWord true 0x04#6 v)
  | .skip | .flat | .quad | .splitx | .splity | .deep | .leaf | .hit | .miss => none

/-- What follows the non-flat bit 0, steps 3 to 6 of R110. -/
def decodeBody (c : SymCtx) (bits : List Bool) : Except DecodeError (Instr × List Bool) :=
  if c.atCeiling then .ok (.deep, bits)
  else if c.wExceeds && c.hExceeds then .ok (.quad, bits)
  else if c.wExceeds then .ok (.splitx, bits)
  else if c.hExceeds then .ok (.splity, bits)
  else if c.cacheEn then
    match bits with
    | [] => .error .streamExhausted
    | true :: rest => .ok (.miss, rest)
    | false :: rest => .ok (.hit, rest)
  else .ok (.leaf, bits)

/-- The flat bit, step 2 of R110. -/
def decodeFlatBit (c : SymCtx) : List Bool → Except DecodeError (Instr × List Bool)
  | [] => .error .streamExhausted
  | true :: rest => .ok (.flat, rest)
  | false :: rest => decodeBody c rest

/-- One node symbol from the command stream, and the rest of it: the decision tree of R110. -/
def decodeSymbol (c : SymCtx) (bits : List Bool) : Except DecodeError (Instr × List Bool) :=
  if c.refEn then
    match bits with
    | [] => .error .streamExhausted
    | false :: rest => .ok (.skip, rest)
    | true :: rest => decodeFlatBit c rest
  else decodeFlatBit c bits

/-- The reference bit of every symbol but SKIP: `REF` of R116. -/
def refBits (refEn : Bool) : List Bool := if refEn then [true] else []

/-- The command part of a symbol in emission order (R105); none for a host operation, and for SKIP without a reference. -/
def encodeSymbol (refEn : Bool) : Instr → Option (List Bool)
  | .skip => if refEn then some [false] else none
  | .flat => some (refBits refEn ++ [true])
  | .quad | .splitx | .splity | .deep | .leaf => some (refBits refEn ++ [false])
  | .hit => some (refBits refEn ++ [false, false])
  | .miss => some (refBits refEn ++ [false, true])
  | .regwr _ _ | .regrd _ _ | .start _ _ | .ack _ => none

/-- The context of the root of a run under the configuration registers' reset values: no reference, no cache, and
`d = maxdepth = 0`. It is the context a symbol is read in when nothing else is known of it (log entry 17). -/
def resetCtx : SymCtx := { refEn := false, cacheEn := false, atCeiling := true, wExceeds := false, hExceeds := false }

/-- Five bytes, the first the least significant, as the 39-bit pattern of R104 and one pad bit (log entry 16). -/
def numberOfBytes : List Byte → Nat
  | [] => 0
  | b :: rest => b.toNat + 256 * numberOfBytes rest

/-- Total on any bytes: five bytes are a host access; one byte is one command bit, in bit 0, read in `resetCtx`. -/
def decodeBytes : List Byte → Except DecodeError Instr
  | [b] =>
    if b.toNat < 2 then (decodeSymbol resetCtx [b.getLsbD 0]).map Prod.fst else .error .excessBits
  | [b0, b1, b2, b3, b4] =>
    if numberOfBytes [b0, b1, b2, b3, b4] < 2 ^ 39 then
      .ok (decodeHost (BitVec.ofNat 39 (numberOfBytes [b0, b1, b2, b3, b4])))
    else .error .padBitSet
  | _ => .error .badLength

/-- The bytes of an instruction whose bits are the number `w`, the least significant byte first. -/
def layBytes : Nat → Nat → List Byte
  | 0, _ => []
  | n + 1, w => BitVec.ofNat 8 w :: layBytes n (w / 256)

/-- The host's question: what the decoder reads from an instruction of `nbits` bits whose bits are `w`. A host access has
39 bits (R104), laid out in five bytes; a symbol's row gives at most 3 bits, laid out in one byte. -/
def decodeTableWord (nbits w : Nat) : Option Instr :=
  match decodeBytes (layBytes (if nbits ≤ 8 then 1 else 5) w) with
  | .ok i => some i
  | .error _ => none

end Sys2Proof
end

