-- ==== Sys2Proof/Machine/State.lean ====
section
/-! DEFINITION. The machine's state: every piece of state the spec gives it, as plain data, and its value at reset. -/

namespace Sys2Proof.Machine

/-- The run faults, one per code of R280 that is ever produced. -/
inductive RunFault where
  | cfgArea | cfgMinsize | cfgMindim | cfgColordiff | cfgIndexbits | cfgDepth | cfgAddr | mem | cache
deriving DecidableEq, Repr

/-- The control phase (R39). -/
inductive Phase where
  | idle | active | cacheWait
deriving DecidableEq, Repr

/-- A pending frame: a half-open region and its depth (R13, R40). -/
structure Frame where
  x1 : Nat
  y1 : Nat
  x2 : Nat
  y2 : Nat
  d : Nat
deriving DecidableEq, Repr

/-- `w = x2 - x1` (R13). -/
abbrev Frame.w (fr : Frame) : Nat := fr.x2 - fr.x1

/-- `h = y2 - y1` (R13). -/
abbrev Frame.h (fr : Frame) : Nat := fr.y2 - fr.y1

/-- The three output ports (R100, R101). -/
inductive Port where
  | cmd | idx | pix
deriving DecidableEq, Repr

/-- A token: a port and the value it carries (R40, R100). -/
inductive Token where
  | cmd (b : Bool)
  | idx (i : Nat)
  | pix (v : Byte)
deriving DecidableEq, Repr

/-- The port a token leaves through (R100). -/
def Token.port : Token → Port
  | .cmd _ => .cmd
  | .idx _ => .idx
  | .pix _ => .pix

/-- The fields of the host register window (R22). A field narrower than its register keeps only its own bits (R23);
WIDTH, HEIGHT, MINSIZE keep COORD_W bits, IMG_BASE, REF_BASE, FAULT_ADDR keep ADDR_W bits. CTRL.START holds nothing. -/
structure Regs where
  irqEn : Bool
  busy : Bool
  done : Bool
  fault : Bool
  errcode : BitVec 4
  keyframe : Bool
  width : Word
  height : Word
  minsize : Word
  maxdepth : BitVec 8
  lazyness : BitVec 8
  colordiff : BitVec 2
  bgra : Bool
  refEn : Bool
  cacheEn : Bool
  indexbits : BitVec 6
  transform : Word
  imgBase : Word
  refBase : Word
  cmdBits : Word
  idxCount : Word
  pixBytes : Word
  faultAddr : Word
deriving DecidableEq, Repr

/-- The latched configuration `cfg` (R38). -/
structure RunCfg where
  W : Nat
  H : Nat
  M : Nat
  maxdepth : Nat
  lazy : Nat
  colordiff : BitVec 2
  bgra : Bool
  refEn : Bool
  cacheEn : Bool
  indexbits : Nat
  imgBase : Nat
  refBase : Nat
deriving DecidableEq, Repr

/-- The node waiting for a cache response (R41): its frame, the tokens before the selector (the reference bit if any and the
non-flat bit 0), its format and its key. -/
structure Pending where
  frame : Frame
  head : List Token
  fmt : Pass
  key : Key
deriving DecidableEq, Repr

/-- The datapath's working registers (R43), which hold the node last stepped. -/
structure Work where
  x1 : Nat
  y1 : Nat
  x2 : Nat
  y2 : Nat
  d : Nat
  w : Nat
  h : Nat
  xm : Nat
  ym : Nat
  mask : List Channel
deriving DecidableEq, Repr

/-- The three stream sinks (R20, R101): what each has accepted, oldest first, and whether it accepts (R182). -/
structure Sinks where
  cmd : List Bool
  idx : List IdxBeat
  pix : List Byte
  cmdReady : Bool
  idxReady : Bool
  pixReady : Bool
deriving DecidableEq, Repr

/-- What the host bus last gave back: the value of the last read (R104, R131), and the error signal of the last access (R333). -/
structure HostPort where
  rdata : Word
  err : Bool
deriving DecidableEq, Repr

/-- Pixel memory: address and byte pairs, addresses strictly rising, no byte equal to `unlistedByte` (log entry 2). -/
abbrev Memory := List Host.Cell

/-- What an address that is not listed reads as. The spec does not give the contents of pixel memory (R323):
DESIGN CHOICE 0x00, unsafe (log entry 2). -/
def unlistedByte : Byte := 0x00#8

/-- One input to the machine, or the leave for the block to move: who acts next (R20, R334; log entry 3). -/
inductive Event where
  /-- The host makes a 32-bit access, as the 39 bits of R104. -/
  | access (w : BitVec 39)
  /-- The host makes an access that is not 32 bits wide, a write or a read; its width, offset and data have no effect (R333). -/
  | oddWidthAccess (write : Bool)
  /-- Reset is asserted (R320). -/
  | reset
  /-- The block, the cache or a sink takes the one step that is enabled (R332). -/
  | own
  /-- A sink begins or ceases to accept tokens (R182, R328). -/
  | setReady (p : Port) (ready : Bool)
  /-- The cache begins or ceases to answer (R188, R328). -/
  | setCacheReady (ready : Bool)
  /-- The host writes a byte of pixel memory (R20, R80, R325). -/
  | memWrite (addr : Nat) (v : Byte)
  /-- The host puts the cache into a state (R238, R324). -/
  | cacheLoad (c : CacheState)
  /-- The host discards what the sinks hold (R331). -/
  | drainSinks
deriving DecidableEq, Repr

/-- Why the machine stops. -/
inductive Fault where
  /-- Raised by `Event.memWrite` only: the host writes pixel memory at an address that ADDR_W bits do not reach (R70).
  Safe: the spec gives no such address (log entry 13). No instruction raises it. -/
  | noSuchAddress (addr : Nat)
deriving DecidableEq, Repr

/-- Why an instruction has no meaning where it was asked for. -/
inductive Refusal where
  /-- An instruction whose meaning is not written. Safe. -/
  | notModelled (mnemonic : String)
  /-- A node symbol asked for where no node step is enabled (R173). Safe: `step` asks for a symbol only where one is. -/
  | nodeStepNotEnabled
  /-- HIT or MISS asked for where no cache request is outstanding (R209). Safe, likewise. -/
  | noRequestOutstanding
  /-- A node symbol other than the one the node classifies as (R175) or the cache answered (R209). Safe, likewise. -/
  | symbolNotSelected
deriving DecidableEq, Repr

/-- The machine: the block (registers, cfg, control position, working registers), what it is attached to (memory, cache,
sinks, host bus, build parameters), and the model's own fields (schedule, unstable, freeCtr). -/
structure State where
  /-- The build and platform parameters (R8). No step changes them. -/
  build : Build
  /-- The host register file (R22). -/
  regs : Regs
  /-- The latched configuration (R38). -/
  cfg : RunCfg
  /-- The control phase (R39). -/
  phase : Phase
  /-- The passes not yet finished, head first (R40). -/
  passes : List Pass
  /-- The pending frames, top first (R40). -/
  stack : List Frame
  /-- The tokens of the current node not yet transferred (R40). -/
  queue : List Token
  /-- The node waiting for the cache (R41). -/
  pending : Option Pending
  /-- The working registers (R43). -/
  work : Work
  /-- Pixel memory (R70). -/
  mem : Memory
  /-- The block_cache_controller's state (R45). -/
  cache : CacheState
  /-- Whether the cache answers requests (R188, R328). -/
  cacheReady : Bool
  /-- The stream sinks (R20). -/
  sinks : Sinks
  /-- What the host bus last gave back (R104, R333). -/
  host : HostPort
  /-- MODEL: the inputs to come and the agent that moves next (log entry 3). -/
  schedule : List Event
  /-- MODEL: addresses of an image region written since START while BUSY = 1 (R325, log entry 11). -/
  unstable : List Nat
  /-- MODEL: how many free values have been drawn (log entry 12). -/
  freeCtr : Nat
deriving DecidableEq, Repr

/-- Every register field at its reset value, 0 (R22, R47, R320). -/
def Regs.reset : Regs :=
  { irqEn := false, busy := false, done := false, fault := false, errcode := 0, keyframe := false,
    width := 0, height := 0, minsize := 0, maxdepth := 0, lazyness := 0,
    colordiff := 0, bgra := false, refEn := false, cacheEn := false, indexbits := 0,
    transform := 0, imgBase := 0, refBase := 0, cmdBits := 0, idxCount := 0, pixBytes := 0, faultAddr := 0 }

/-- `cfg` after reset. R47 and R323 leave it unspecified: DESIGN CHOICE all zero (log entry 8). -/
def RunCfg.reset : RunCfg :=
  { W := 0, H := 0, M := 0, maxdepth := 0, lazy := 0, colordiff := 0, bgra := false, refEn := false,
    cacheEn := false, indexbits := 0, imgBase := 0, refBase := 0 }

/-- The working registers after reset. R323 leaves them unspecified: DESIGN CHOICE all zero (log entry 8). -/
def Work.reset : Work :=
  { x1 := 0, y1 := 0, x2 := 0, y2 := 0, d := 0, w := 0, h := 0, xm := 0, ym := 0, mask := [] }

/-- The machine right after reset (R47, R320, R322). What the rules do not give (build, memory, cache, sinks, host bus, the
model's own fields) is named in log entries 1 to 5, 8, 9, 11 and 12. -/
def State.reset : State :=
  { build := Build.reference
    regs := Regs.reset
    cfg := RunCfg.reset
    phase := .idle
    passes := []
    stack := []
    queue := []
    pending := none
    work := Work.reset
    mem := []
    cache := { slots := [], failing := [], policy := 0 }
    cacheReady := true
    sinks := { cmd := [], idx := [], pix := [], cmdReady := true, idxReady := true, pixReady := true }
    host := { rdata := 0, err := false }
    schedule := []
    unstable := []
    freeCtr := 0 }

end Sys2Proof.Machine
end

