-- ==== Sys2Proof/Machine/Flags.lean ====
section
/-! DEFINITION. STATUS, CTRL and MODE as the host reads them, the fault codes, the flags each event writes, and `irq`. -/

namespace Sys2Proof.Machine

/-- The code of a run fault (R280). -/
def RunFault.code : RunFault → BitVec 4
  | .cfgArea => 1
  | .cfgMinsize => 2
  | .cfgMindim => 3
  | .cfgColordiff => 4
  | .cfgIndexbits => 5
  | .cfgDepth => 6
  | .cfgAddr => 7
  | .mem => 8
  | .cache => 9

/-- CTRL as read: START reads 0, IRQ_EN is bit 1 (R22, R131). -/
def Regs.ctrlWord (r : Regs) : Word := 0#30 ++ BitVec.ofBool r.irqEn ++ 0#1

/-- STATUS as read: KEYFRAME [16], ERRCODE [11:8], FAULT [2], DONE [1], BUSY [0], the rest 0 (R22). -/
def Regs.statusWord (r : Regs) : Word :=
  0#15 ++ BitVec.ofBool r.keyframe ++ 0#4 ++ r.errcode ++ 0#5 ++
    BitVec.ofBool r.fault ++ BitVec.ofBool r.done ++ BitVec.ofBool r.busy

/-- MODE as read: INDEXBITS [13:8], CACHE_EN [4], REF_EN [3], BGRA [2], COLORDIFF [1:0], the rest 0 (R22). -/
def Regs.modeWord (r : Regs) : Word :=
  0#18 ++ r.indexbits ++ 0#3 ++
    BitVec.ofBool r.cacheEn ++ BitVec.ofBool r.refEn ++ BitVec.ofBool r.bgra ++ r.colordiff

/-- The level interrupt output (R297). -/
def State.irq (s : State) : Bool := s.regs.irqEn && (s.regs.done || s.regs.fault)

/-- The flags of a fault entry (R283): FAULT, ERRCODE, DONE, FAULT_ADDR (R36) and BUSY. -/
def Regs.enterFault (r : Regs) (f : RunFault) (info : Word) : Regs :=
  { r with fault := true, errcode := f.code, done := false, faultAddr := if f = .mem then info else 0, busy := false }

/-- The flags of a completion (R184). -/
def Regs.complete (r : Regs) : Regs := { r with busy := false, done := true }

/-- The flags an accepted START clears, and the counters, and KEYFRAME latched (R132, R35). -/
def Regs.clearForStart (r : Regs) : Regs :=
  { r with done := false, fault := false, errcode := 0, faultAddr := 0,
           cmdBits := 0, idxCount := 0, pixBytes := 0, keyframe := !r.refEn }

/-- The write-1-to-clear bits of an ACK (R133). -/
def Regs.acknowledge (r : Regs) (v : Word) : Regs :=
  let r1 := if v.getLsbD 1 then { r with done := false } else r
  if v.getLsbD 2 then { r1 with fault := false, errcode := 0, faultAddr := 0 } else r1

/-- The counter a transfer on a port increments, modulo 2^32 (R103). -/
def Regs.count (r : Regs) : Port → Regs
  | .cmd => { r with cmdBits := r.cmdBits + 1 }
  | .idx => { r with idxCount := r.idxCount + 1 }
  | .pix => { r with pixBytes := r.pixBytes + 1 }

end Sys2Proof.Machine
end

