-- ==== Sys2Proof/Machine/Operands.lean ====
section
/-! DEFINITION. The tile_comparator (R150 to R160), the traversal's geometry (R176 to R178), the classification of a node
(R175), the tokens each symbol queues (R200 to R208), and the reads of pixel memory they take (R71, R72, R181). -/

namespace Sys2Proof.Machine

/-! ### Masks, comparisons, payloads (R150 to R158) -/

/-- The channels that take part in equality tests (R150). -/
def maskOf : Pass → List Channel
  | .full => [.x, .y, .z]
  | .luma => [.y]
  | .chroma => [.x, .z]

/-- Masked equality (R151). -/
def eqM (p q : Pixel) (mk : List Channel) : Bool := mk.all fun c => p.get c == q.get c

/-- The pixels of a region in row-major order (R14). -/
def rowMajor (fr : Frame) : List (Nat × Nat) :=
  (List.range fr.h).flatMap fun j => (List.range fr.w).map fun i => (fr.x1 + i, fr.y1 + j)

/-- CMP_REF (R152). -/
def cmpRef (P Q : Image) (fr : Frame) (mk : List Channel) : Bool :=
  (rowMajor fr).all fun c => eqM (P c.1 c.2) (Q c.1 c.2) mk

/-- CMP_FLAT (R153). -/
def cmpFlat (P : Image) (fr : Frame) (mk : List Channel) : Bool :=
  (rowMajor fr).all fun c => eqM (P c.1 c.2) (P fr.x1 fr.y1) mk

/-- The channels of a payload in the order they are emitted: the table of R155. -/
def payloadOrder (bgra : Bool) : Pass → List Channel
  | .full => if bgra then [.z, .y, .x] else [.x, .y, .z]
  | .luma => [.y]
  | .chroma => if bgra then [.z, .x] else [.x, .z]

/-- `nb(p)`, the payload bytes of a pixel (R107). -/
def nb : Pass → Nat
  | .full => 3
  | .luma => 1
  | .chroma => 2

/-- `pixBytes(q, p)` (R155). -/
def pixBytes (bgra : Bool) (q : Pixel) (p : Pass) : List Byte := (payloadOrder bgra p).map q.get

/-- `raw(r, p)` (R109, R156). -/
def raw (bgra : Bool) (P : Image) (fr : Frame) (p : Pass) : List Byte :=
  (rowMajor fr).flatMap fun c => pixBytes bgra (P c.1 c.2) p

/-- `key(r, p)` (R158). -/
def keyOf (bgra : Bool) (P : Image) (fr : Frame) (p : Pass) : Key :=
  { fmt := p, w := fr.w, h := fr.h, bytes := raw bgra P fr p }

/-! ### Passes, splits, depth (R171, R176 to R178) -/

/-- `PassList` (R171). A COLORDIFF of 3 never gets here (R287). -/
def passList (colordiff : BitVec 2) : List Pass := if colordiff = 2 then [.luma, .chroma] else [.full]

/-- The root frame (R172). -/
def rootFrame (W H : Nat) : Frame := { x1 := 0, y1 := 0, x2 := W, y2 := H, d := 0 }

/-- `xm = (x1 + x2) >> 1` (R177). -/
def Frame.xm (fr : Frame) : Nat := (fr.x1 + fr.x2) / 2

/-- `ym = (y1 + y2) >> 1` (R177). -/
def Frame.ym (fr : Frame) : Nat := (fr.y1 + fr.y2) / 2

/-- A QUAD's children in visiting order: top-left, bottom-left, top-right, bottom-right (R177). -/
def quadChildren (fr : Frame) : List Frame :=
  [⟨fr.x1, fr.y1, fr.xm, fr.ym, fr.d + 1⟩, ⟨fr.x1, fr.ym, fr.xm, fr.y2, fr.d + 1⟩,
   ⟨fr.xm, fr.y1, fr.x2, fr.ym, fr.d + 1⟩, ⟨fr.xm, fr.ym, fr.x2, fr.y2, fr.d + 1⟩]

/-- A SPLITX's children: left, right (R177). -/
def splitxChildren (fr : Frame) : List Frame :=
  [⟨fr.x1, fr.y1, fr.xm, fr.y2, fr.d + 1⟩, ⟨fr.xm, fr.y1, fr.x2, fr.y2, fr.d + 1⟩]

/-- A SPLITY's children: top, bottom (R177). -/
def splityChildren (fr : Frame) : List Frame :=
  [⟨fr.x1, fr.y1, fr.x2, fr.ym, fr.d + 1⟩, ⟨fr.x1, fr.ym, fr.x2, fr.y2, fr.d + 1⟩]

/-- `k` of R178 with an explicit bound on the halvings. -/
def halvings (M : Nat) : Nat → Nat → Nat
  | 0, _ => 0
  | f + 1, e => if e ≤ M then 0 else 1 + halvings M f (e - e / 2)

/-- `k(e)` (R178): an extent `e` is halved at most `e` times when `M ≥ 1`. -/
def kDepth (M e : Nat) : Nat := halvings M e e

/-- `Dmax` (R178). -/
def dMax (c : RunCfg) : Nat := min c.maxdepth (max (kDepth c.M c.W) (kDepth c.M c.H))

/-! ### Classification (R174, R175) -/

/-- What a node classifies as; `cached` becomes HIT or MISS (R175). -/
inductive NodeClass where
  | skip | flat | deep | quad | splitx | splity | cached | leaf
deriving DecidableEq, Repr

/-- `lazy(d)` (R174). -/
def isLazy (c : RunCfg) (fr : Frame) : Bool := decide (fr.d < c.lazy)

/-- What a non-flat node is: the depth ceiling, then the split rule, then the minimum-size leaf (R175, R176). -/
def classifyNonFlat (c : RunCfg) (fr : Frame) : NodeClass :=
  if fr.d = c.maxdepth then .deep
  else if c.M < fr.w ∧ c.M < fr.h then .quad
  else if c.M < fr.w then .splitx
  else if c.M < fr.h then .splity
  else if c.cacheEn then .cached
  else .leaf

/-- `Classify` (R175): the first clause that applies. -/
def classify (c : RunCfg) (P Q : Image) (fr : Frame) (p : Pass) : NodeClass :=
  if c.refEn ∧ isLazy c fr = false ∧ cmpRef P Q fr (maskOf p) = true then .skip
  else if isLazy c fr = false ∧ cmpFlat P fr (maskOf p) = true then .flat
  else classifyNonFlat c fr

/-- The split classes. -/
def NodeClass.isSplit : NodeClass → Bool
  | .quad | .splitx | .splity => true
  | .skip | .flat | .deep | .cached | .leaf => false

/-! ### Tokens (R200 to R208) -/

/-- `REF`: the reference bit 1 exactly when `ref_en` (43_node_symbols.md, R105). -/
def refTokens (c : RunCfg) : List Token := if c.refEn then [.cmd true] else []

/-- `PIXS(bs)` (43_node_symbols.md). -/
def pixTokens (bs : List Byte) : List Token := bs.map .pix

/-- SKIP's tokens (R200). -/
def skipTokens : List Token := [.cmd false]

/-- FLAT's tokens (R201). -/
def flatTokens (c : RunCfg) (P : Image) (fr : Frame) (p : Pass) : List Token :=
  refTokens c ++ [.cmd true] ++ pixTokens (pixBytes c.bgra (P fr.x1 fr.y1) p)

/-- The tokens of QUAD, SPLITX and SPLITY (R202 to R204). -/
def splitTokens (c : RunCfg) : List Token := refTokens c ++ [.cmd false]

/-- The tokens of DEEP and LEAF (R205, R206). -/
def rawTokens (c : RunCfg) (P : Image) (fr : Frame) (p : Pass) : List Token :=
  refTokens c ++ [.cmd false] ++ pixTokens (raw c.bgra P fr p)

/-- HIT's tokens (R207). -/
def hitTokens (c : RunCfg) (i : Nat) : List Token := refTokens c ++ [.cmd false, .cmd false, .idx i]

/-- MISS's tokens (R208): the payload is the key's bytes. -/
def missTokens (c : RunCfg) (bytes : List Byte) : List Token :=
  refTokens c ++ [.cmd false, .cmd true] ++ pixTokens bytes

/-! ### Reading pixel memory (R71, R72, R181) -/

/-- What an address reads as in a memory (log entry 2). -/
def Memory.read : Memory → Nat → Byte
  | [], _ => unlistedByte
  | (b, v) :: rest, a => if a = b then v else Memory.read rest a

/-- The four byte addresses a pixel read at `a` moves (R72, R75). -/
def pixelBytes (a : Nat) : List Nat := [a, a + 1, a + 2, a + 3]

/-- Whether a 4-byte read at an address meets MEM_ERR (R72). -/
def Build.errs (b : Build) (a : Nat) : Bool := (pixelBytes a).any fun i => decide (i ∈ b.memErr)

/-- The pixel whose four bytes start at an address of a memory, `x` lowest (R72, R73). -/
def fourBytes (m : Memory) (a : Nat) : Pixel :=
  { x := Memory.read m a, y := Memory.read m (a + 1), z := Memory.read m (a + 2), a := Memory.read m (a + 3) }

/-- Whether a pixel read is affected by a host write into an image region during the run: one of its four bytes was written
(R325; log entry 11). -/
def State.affected (s : State) (a : Nat) : Bool := (pixelBytes a).any fun i => decide (i ∈ s.unstable)

/-- The pixel a read at an address returns: the memory's four bytes, or, where the read is affected, a free pixel (R72, R325). -/
def State.pixelAt (s : State) (a : Nat) : Pixel :=
  if s.affected a then Config.freePixel s.freeCtr a else fourBytes s.mem a

/-- `MemRead(a, 4)`: a pixel, or none for BusError (R72). -/
def State.memRead (s : State) (a : Nat) : Option Pixel := if Build.errs s.build a then none else some (s.pixelAt a)

/-- The address of pixel (x, y) of an image of width `W` at `base`, as an ADDR_W-bit address (R71, R189; log entry 21). -/
def pixelAddr (b : Build) (W base x y : Nat) : Nat := (base + 4 * (y * W + x)) % 2 ^ b.addrW

/-- `P(x, y)` (R12). -/
def State.P (s : State) : Image := fun x y => s.pixelAt (pixelAddr s.build s.cfg.W s.cfg.imgBase x y)

/-- `Q(x, y)` (R12). -/
def State.Q (s : State) : Image := fun x y => s.pixelAt (pixelAddr s.build s.cfg.W s.cfg.refBase x y)

/-- The pixel addresses a node reads, in order (R181): none for a lazy split; otherwise the region of the image, then that of
the reference when `ref_en` and the node is not lazy. -/
def State.readSet (s : State) (fr : Frame) : List Nat :=
  if isLazy s.cfg fr ∧ (classifyNonFlat s.cfg fr).isSplit then []
  else
    (rowMajor fr).map (fun c => pixelAddr s.build s.cfg.W s.cfg.imgBase c.1 c.2) ++
      (if s.cfg.refEn ∧ isLazy s.cfg fr = false then
        (rowMajor fr).map (fun c => pixelAddr s.build s.cfg.W s.cfg.refBase c.1 c.2)
      else [])

/-- The first erroring pixel address of a node's read set (R181). -/
def State.firstError (s : State) (fr : Frame) : Option Nat :=
  (s.readSet fr).find? fun a => (s.memRead a).isNone

/-- What the node at `fr` in pass `p` classifies as in this state (R175). -/
def State.classOf (s : State) (p : Pass) (fr : Frame) : NodeClass := classify s.cfg s.P s.Q fr p

end Sys2Proof.Machine
end

