-- ==== Sys2Proof/Machine/Cache.lean ====
section
/-! DEFINITION. The attached block_cache_controller as a cache model (R231) that meets the contract of R232 and R234 by
construction, whatever its free functions do (log entry 5). -/

namespace Sys2Proof.Machine

/-- The content of a slot (R231). -/
def cacheHolds (c : CacheState) (i : Nat) : Option Key := c.slots.lookup i

/-- The slot a hit on `k` names: the first in the cache's own order that holds it. -/
def cacheSlotOf (c : CacheState) (k : Key) : Option Nat :=
  (c.slots.find? fun e => decide (cacheHolds c e.1 = some k)).map Prod.fst

/-- The cache agent's response (R230, R231): ERROR where the cache fails (R235), HIT where a slot holds the key (R232),
INSERTED otherwise (R234). -/
def cacheLookup (c : CacheState) (k : Key) : CacheState × Resp :=
  if k ∈ c.failing then (Config.cacheAfterError c k, .error)
  else
    match cacheSlotOf c k with
    | some i => (Config.cacheTouch c i, .hit i)
    | none => (Config.cacheAdd c k, .inserted)

/-- The attached cache as an instance of the abstract model (R231). -/
def platformCache : CacheModel CacheState :=
  { holds := cacheHolds, lookup := cacheLookup, add := Config.cacheAdd, touch := Config.cacheTouch }

end Sys2Proof.Machine
end

