-- ==== Sys2Proof/Machine/Ops.lean ====
section
/-! DEFINITION. The named operations over memory and registers, START's configuration check, fault entry and its
acknowledge, and reset. -/

namespace Sys2Proof.Machine

/-! ### Memory -/

/-- A byte put into pixel memory by the host, in canonical form (log entry 2). The block never writes (R76). -/
def Memory.write : Memory → Nat → Byte → Memory
  | [], a, v => if v = unlistedByte then [] else [(a, v)]
  | (b, u) :: rest, a, v =>
    if a < b then (if v = unlistedByte then (b, u) :: rest else (a, v) :: (b, u) :: rest)
    else if a = b then (if v = unlistedByte then rest else (a, v) :: rest)
    else (b, u) :: Memory.write rest a v

/-- The canonical form: addresses strictly rising, no entry equal to what an unlisted address reads as. -/
abbrev Memory.wf (m : Memory) : Prop :=
  m.Pairwise (fun p q => p.1 < q.1) ∧ ∀ c ∈ m, c.2 ≠ unlistedByte

/-- Whether an address lies in the image region, or in the reference region of a run with one (R71, R79). -/
def State.inRegions (s : State) (a : Nat) : Bool :=
  decide (s.cfg.imgBase ≤ a ∧ a < s.cfg.imgBase + 4 * s.cfg.W * s.cfg.H) ||
    (s.cfg.refEn && decide (s.cfg.refBase ≤ a ∧ a < s.cfg.refBase + 4 * s.cfg.W * s.cfg.H))

/-- The host writes a byte of pixel memory. Inside an image region while BUSY = 1 the reads of the byte's pixel become
unspecified until the next START (R325; log entry 11). -/
def State.hostMemWrite (s : State) (a : Nat) (v : Byte) : State :=
  { s with
    mem := Memory.write s.mem a v
    unstable := if s.regs.busy && s.inRegions a && !s.unstable.contains a then a :: s.unstable else s.unstable }

/-! ### Fault entry (R283) -/

/-- `raise Fault(code, info)`: the one fault entry of the machine (R283). Nothing returns from it (R295). -/
def State.raiseFault (s : State) (f : RunFault) (info : Word) : State :=
  { s with
    regs := s.regs.enterFault f info
    phase := .idle
    passes := []
    stack := []
    queue := []
    pending := none }

/-! ### Registers (R21 to R23, R130, R131) -/

/-- The registers of the window (R22). -/
inductive Reg where
  | ctrl | status | width | height | minsize | maxdepth | lazyness | mode | transform | imgBase | refBase
  | cmdBits | idxCount | pixBytes | faultAddr | reserved
deriving DecidableEq, Repr

/-- The register at a byte offset (R22, R113); none at an offset that is not 4-byte aligned (R21). -/
def regAt (off : BitVec 6) : Option Reg :=
  match off.toNat with
  | 0x00 => some .ctrl
  | 0x04 => some .status
  | 0x08 => some .width
  | 0x0C => some .height
  | 0x10 => some .minsize
  | 0x14 => some .maxdepth
  | 0x18 => some .lazyness
  | 0x1C => some .mode
  | 0x20 => some .transform
  | 0x24 => some .imgBase
  | 0x28 => some .refBase
  | 0x2C => some .cmdBits
  | 0x30 => some .idxCount
  | 0x34 => some .pixBytes
  | 0x38 => some .faultAddr
  | 0x3C => some .reserved
  | _ => none

/-- The value a register reads as, fields zero-extended and reserved bits 0 (R23, R131). -/
def Regs.read (r : Regs) : Reg → Word
  | .ctrl => r.ctrlWord
  | .status => r.statusWord
  | .width => r.width
  | .height => r.height
  | .minsize => r.minsize
  | .maxdepth => r.maxdepth.setWidth 32
  | .lazyness => r.lazyness.setWidth 32
  | .mode => r.modeWord
  | .transform => r.transform
  | .imgBase => r.imgBase
  | .refBase => r.refBase
  | .cmdBits => r.cmdBits
  | .idxCount => r.idxCount
  | .pixBytes => r.pixBytes
  | .faultAddr => r.faultAddr
  | .reserved => 0

/-- `v[n-1:0]`, zero-extended (R23). -/
def lowBits (n : Nat) (v : Word) : Word := BitVec.ofNat 32 (v.toNat % 2 ^ n)

/-- A configuration register takes the bits its fields hold (R23, R130). Other registers are not written so. -/
def Regs.writeCfg (b : Build) (r : Regs) (v : Word) : Reg → Regs
  | .width => { r with width := lowBits b.coordW v }
  | .height => { r with height := lowBits b.coordW v }
  | .minsize => { r with minsize := lowBits b.coordW v }
  | .maxdepth => { r with maxdepth := v.extractLsb' 0 8 }
  | .lazyness => { r with lazyness := v.extractLsb' 0 8 }
  | .mode =>
    { r with colordiff := v.extractLsb' 0 2, bgra := v.getLsbD 2, refEn := v.getLsbD 3, cacheEn := v.getLsbD 4,
             indexbits := v.extractLsb' 8 6 }
  | .transform => { r with transform := v }
  | .imgBase => { r with imgBase := lowBits b.addrW v }
  | .refBase => { r with refBase := lowBits b.addrW v }
  | .ctrl | .status | .cmdBits | .idxCount | .pixBytes | .faultAddr | .reserved => r

/-- CTRL.IRQ_EN is written, at any time (R37, R130). -/
def State.setIrqEn (s : State) (b : Bool) : State := { s with regs := { s.regs with irqEn := b } }

/-- `ACK(v)` (R133). -/
def State.ack (s : State) (v : Word) : State := { s with regs := s.regs.acknowledge v }

/-! ### START (R132, R282) -/

/-- START's copy of the configuration registers (R38, R132). -/
def Regs.toCfg (r : Regs) : RunCfg :=
  { W := r.width.toNat, H := r.height.toNat, M := r.minsize.toNat, maxdepth := r.maxdepth.toNat, lazy := r.lazyness.toNat,
    colordiff := r.colordiff, bgra := r.bgra, refEn := r.refEn, cacheEn := r.cacheEn, indexbits := r.indexbits.toNat,
    imgBase := r.imgBase.toNat, refBase := r.refBase.toNat }

/-- `AddrOk(B)` (R282, R290). -/
def addrOk (b : Build) (c : RunCfg) (base : Nat) : Bool :=
  decide (base % 4 = 0) && decide (base + 4 * c.W * c.H ≤ 2 ^ b.addrW)

/-- `ConfigCheck(cfg)` (R282): the first code that applies, none for 0. -/
def configCheck (b : Build) (c : RunCfg) : Option RunFault :=
  if c.W = 0 ∨ c.H = 0 then some .cfgArea
  else if c.M = 0 then some .cfgMinsize
  else if c.W ≤ c.M ∧ c.H ≤ c.M then some .cfgMindim
  else if c.colordiff = 3 then some .cfgColordiff
  else if c.cacheEn = true ∧ b.indexbitsMax < c.indexbits then some .cfgIndexbits
  else if b.maxHwDepth < dMax c then some .cfgDepth
  else if addrOk b c c.imgBase = false ∨ (c.refEn = true ∧ addrOk b c c.refBase = false) then some .cfgAddr
  else none

/-- START once it is accepted: outcome and counters cleared, KEYFRAME and `cfg` latched (R132). -/
def State.latchStart (s : State) : State :=
  { s with regs := s.regs.clearForStart, cfg := s.regs.toCfg, unstable := [] }

/-- The run begins: first pass list, root frame, ACTIVE, BUSY (R132). -/
def State.beginRun (s : State) : State :=
  { s with
    passes := passList s.cfg.colordiff
    stack := [rootFrame s.cfg.W s.cfg.H]
    queue := []
    phase := .active
    regs := { s.regs with busy := true } }

/-- `START` (R132): ignored while BUSY = 1 (R134); a configuration fault ends it before a run begins. -/
def State.start (s : State) : State :=
  if s.regs.busy then s
  else
    match configCheck s.build s.regs.toCfg with
    | some f => s.latchStart.raiseFault f 0
    | none => s.latchStart.beginRun

/-! ### Host accesses (R130, R131, R333) -/

/-- `REGWR(off, v)` at an aligned offset (R130). -/
def State.regWrite (s : State) (r : Reg) (v : Word) : State :=
  match r with
  | .ctrl =>
    let s1 := s.setIrqEn (v.getLsbD 1)
    if v.getLsbD 0 then s1.start else s1
  | .status => s.ack v
  | .width | .height | .minsize | .maxdepth | .lazyness | .mode | .transform | .imgBase | .refBase =>
    if s.regs.busy then s else { s with regs := Regs.writeCfg s.build s.regs v r }
  | .cmdBits | .idxCount | .pixBytes | .faultAddr | .reserved => s

/-- The bus after a legal write: no error; the last read value stays (log entry 9). -/
def State.writeDone (s : State) : State := { s with host := { s.host with err := false } }

/-- The bus after a legal read (R104, R131). -/
def State.readDone (s : State) (v : Word) : State := { s with host := { rdata := v, err := false } }

/-- A refused write changes no state (R333); the bus may report it (log entry 10). -/
def State.refuseWrite (s : State) : State := { s with host := { s.host with err := s.build.reportsRefused } }

/-- A refused read returns 0 (R333); the bus may report it (log entry 10). -/
def State.refuseRead (s : State) : State := { s with host := { rdata := 0, err := s.build.reportsRefused } }

/-! ### Reset (R320, R321) -/

/-- Reset is asserted: the block's state is that of R47, whatever it was; queued tokens are dropped; memory, sinks and build
stay. A cache request outstanding may or may not have changed the cache: a free bit says (R321; log entry 7). -/
def State.assertReset (s : State) : State :=
  { s with
    regs := Regs.reset
    cfg := RunCfg.reset
    phase := .idle
    passes := []
    stack := []
    queue := []
    pending := none
    work := Work.reset
    cache := match s.pending with
      | some pd => if Config.freeBit s.freeCtr then (cacheLookup s.cache pd.key).1 else s.cache
      | none => s.cache
    freeCtr := s.freeCtr + 1 }

end Sys2Proof.Machine
end

