-- ==== Sys2Proof/Machine/HostCommands.lean ====
section
/-! DEFINITION. The meanings of the four host operations: REGWR, REGRD, START, ACK (R130 to R133). -/

namespace Sys2Proof.Machine

/-- REGWR (R130); refused at an unaligned offset (R333). -/
def execRegwr (off : BitVec 6) (v : Word) (s : State) : Host.Outcome State Fault Refusal :=
  match regAt off with
  | some r => .next (s.regWrite r v).writeDone
  | none => .next s.refuseWrite

/-- REGRD (R131): no side effect but the value returned; refused at an unaligned offset (R333). The data bits of the access
are not looked at. -/
def execRegrd (off : BitVec 6) (_data : Word) (s : State) : Host.Outcome State Fault Refusal :=
  match regAt off with
  | some r => .next (s.readDone (s.regs.read r))
  | none => .next s.refuseRead

/-- START (R132): IRQ_EN is written before START acts (R130), also while BUSY = 1 (R134). The reserved bits are dropped (R23). -/
def execStart (_rest : BitVec 30) (irqEn : Bool) (s : State) : Host.Outcome State Fault Refusal :=
  .next (s.setIrqEn irqEn).start.writeDone

/-- ACK (R133). -/
def execAck (v : Word) (s : State) : Host.Outcome State Fault Refusal :=
  .next (s.ack v).writeDone

end Sys2Proof.Machine
end

