-- ==== Sys2Proof/Machine/NodeSymbols.lean ====
section
/-! DEFINITION. The node step (R173, R180), the cache response step (R209), and the meanings of the nine node symbols
(R200 to R208). -/

namespace Sys2Proof.Machine

/-- The pass and frame a node step would handle; none where R173 does not enable one. -/
def State.enabledNode (s : State) : Option (Pass × Frame) :=
  if s.phase = .active ∧ s.queue = [] then
    match s.passes, s.stack with
    | p :: _, fr :: _ => some (p, fr)
    | _, _ => none
  else none

/-- The node is popped and the working registers hold it (R43, R180). -/
def State.popNode (s : State) (p : Pass) (fr : Frame) : State :=
  { s with
    stack := s.stack.tail
    work := { x1 := fr.x1, y1 := fr.y1, x2 := fr.x2, y2 := fr.y2, d := fr.d, w := fr.w, h := fr.h,
              xm := fr.xm, ym := fr.ym, mask := maskOf p }
    freeCtr := s.freeCtr + 1 }

/-- One atomic node step (R180) for the symbol class `want`: pop; a read error faults with E_MEM before anything else (R181,
R291, R294); then the node must classify as `want` (R175), and `act` gives the step's effect. -/
def State.nodeStep (s : State) (want : NodeClass) (act : Pass → Frame → State → State) :
    Host.Outcome State Fault Refusal :=
  match s.enabledNode with
  | none => .refused .nodeStepNotEnabled
  | some (p, fr) =>
    match s.firstError fr with
    | some a => .next ((s.popNode p fr).raiseFault .mem (BitVec.ofNat 32 a))
    | none => if s.classOf p fr = want then .next (act p fr (s.popNode p fr)) else .refused .symbolNotSelected

/-- The node's tokens enter the queue (R102, R180). -/
def State.enqueue (s : State) (ts : List Token) : State := { s with queue := ts }

/-- A split's children go on the stack, the first visited on top (R177). -/
def State.pushChildren (s : State) (cs : List Frame) : State := { s with stack := cs ++ s.stack }

/-- SKIP (R200). -/
def execSkip (s : State) : Host.Outcome State Fault Refusal :=
  s.nodeStep .skip fun _ _ t => t.enqueue skipTokens

/-- FLAT (R201): the representative is the top-left pixel. -/
def execFlat (s : State) : Host.Outcome State Fault Refusal :=
  s.nodeStep .flat fun p fr t => t.enqueue (flatTokens s.cfg s.P fr p)

/-- QUAD (R202). -/
def execQuad (s : State) : Host.Outcome State Fault Refusal :=
  s.nodeStep .quad fun _ fr t => (t.enqueue (splitTokens s.cfg)).pushChildren (quadChildren fr)

/-- SPLITX (R203). -/
def execSplitx (s : State) : Host.Outcome State Fault Refusal :=
  s.nodeStep .splitx fun _ fr t => (t.enqueue (splitTokens s.cfg)).pushChildren (splitxChildren fr)

/-- SPLITY (R204). -/
def execSplity (s : State) : Host.Outcome State Fault Refusal :=
  s.nodeStep .splity fun _ fr t => (t.enqueue (splitTokens s.cfg)).pushChildren (splityChildren fr)

/-- DEEP (R205): the region raw; the cache is not consulted. -/
def execDeep (s : State) : Host.Outcome State Fault Refusal :=
  s.nodeStep .deep fun p fr t => t.enqueue (rawTokens s.cfg s.P fr p)

/-- LEAF (R206): the region raw, no selector bit. -/
def execLeaf (s : State) : Host.Outcome State Fault Refusal :=
  s.nodeStep .leaf fun p fr t => t.enqueue (rawTokens s.cfg s.P fr p)

/-- The node step of a CACHED node (R180): the request is sent and the block waits (R39, R41, R230). -/
def State.sendRequest (s : State) : Host.Outcome State Fault Refusal :=
  s.nodeStep .cached fun p fr t =>
    { t with
      pending := some { frame := fr, head := splitTokens s.cfg, fmt := p, key := keyOf s.cfg.bgra s.P fr p }
      phase := .cacheWait }

/-- The cache response step (R209): the cache answers the outstanding request and moves to its next state; `act` finishes the
node from the answer. -/
def State.cacheResponse (s : State) (act : Pending → State → Resp → Host.Outcome State Fault Refusal) :
    Host.Outcome State Fault Refusal :=
  match s.phase, s.pending with
  | .cacheWait, some pd =>
    act pd { s with cache := (cacheLookup s.cache pd.key).1, pending := none } (cacheLookup s.cache pd.key).2
  | _, _ => .refused .noRequestOutstanding

/-- HIT (R207): the tokens before the selector, the selector 0 and the index. An index that does not fit, or ERROR, faults with
E_CACHE (R209, R236, R292). -/
def execHit (s : State) : Host.Outcome State Fault Refusal :=
  s.cacheResponse fun pd t r =>
    match r with
    | .hit i =>
      if i < 2 ^ s.cfg.indexbits then
        .next { t with queue := pd.head ++ [.cmd false, .idx i], phase := .active }
      else .next (t.raiseFault .cache 0)
    | .inserted => .refused .symbolNotSelected
    | .error => .next (t.raiseFault .cache 0)

/-- MISS (R208): the tokens before the selector, the selector 1 and the key's bytes (log entry 20). An index that does not fit,
or ERROR, faults with E_CACHE (R209, R236, R292). -/
def execMiss (s : State) : Host.Outcome State Fault Refusal :=
  s.cacheResponse fun pd t r =>
    match r with
    | .inserted =>
      .next { t with queue := pd.head ++ [.cmd true] ++ pixTokens pd.key.bytes, phase := .active }
    | .hit i =>
      if i < 2 ^ s.cfg.indexbits then .refused .symbolNotSelected else .next (t.raiseFault .cache 0)
    | .error => .next (t.raiseFault .cache 0)

end Sys2Proof.Machine
end

