-- ==== Sys2Proof/Machine/Dispatch.lean ====
section
/-! DEFINITION. One arm per instruction: each calls its meaning. -/

namespace Sys2Proof.Machine

def exec (i : Instr) (s : State) : Host.Outcome State Fault Refusal :=
  match i with
  -- host operations (R130 to R133)
  | .regwr off v => Sys2Proof.Machine.execRegwr off v s
  | .regrd off data => Sys2Proof.Machine.execRegrd off data s
  | .start rest irqEn => Sys2Proof.Machine.execStart rest irqEn s
  | .ack v => Sys2Proof.Machine.execAck v s
  -- node symbols (R200 to R208)
  | .skip => Sys2Proof.Machine.execSkip s
  | .flat => Sys2Proof.Machine.execFlat s
  | .quad => Sys2Proof.Machine.execQuad s
  | .splitx => Sys2Proof.Machine.execSplitx s
  | .splity => Sys2Proof.Machine.execSplity s
  | .deep => Sys2Proof.Machine.execDeep s
  | .leaf => Sys2Proof.Machine.execLeaf s
  | .hit => Sys2Proof.Machine.execHit s
  | .miss => Sys2Proof.Machine.execMiss s

end Sys2Proof.Machine
end

