-- ==== Sys2Proof/Machine/Traversal.lean ====
section
/-! DEFINITION. The block's steps other than those of a symbol: port transfer (R182) and pass end (R183, R184); which symbol
the block emits next (R175, R209); and how a symbol is set up as the next thing the machine does. -/

namespace Sys2Proof.Machine

/-- Whether a port's sink accepts (R101, R182). -/
def Sinks.accepts (k : Sinks) : Port → Bool
  | .cmd => k.cmdReady
  | .idx => k.idxReady
  | .pix => k.pixReady

/-- A sink begins or ceases to accept (R182, R328). -/
def Sinks.setReady (k : Sinks) (ready : Bool) : Port → Sinks
  | .cmd => { k with cmdReady := ready }
  | .idx => { k with idxReady := ready }
  | .pix => { k with pixReady := ready }

/-- A sink takes a token; IDX carries the value zero-extended and `idx_width = INDEXBITS` (R101, R108). -/
def Sinks.take (k : Sinks) (indexbits : Nat) : Token → Sinks
  | .cmd b => { k with cmd := k.cmd ++ [b] }
  | .idx i => { k with idx := k.idx ++ [{ data := i, width := indexbits }] }
  | .pix v => { k with pix := k.pix ++ [v] }

/-- The port transfer step of the head token `t` before the tokens `q` (R182, R103). -/
def State.transfer (s : State) (t : Token) (q : List Token) : State :=
  { s with
    queue := q
    regs := s.regs.count t.port
    sinks := s.sinks.take s.cfg.indexbits t }

/-- The pass-end step (R183): the next pass's root, or completion (R184). -/
def State.passEnd (s : State) : State :=
  match s.passes.tail with
  | [] => { s with passes := [], phase := .idle, regs := s.regs.complete }
  | p :: ps => { s with passes := p :: ps, stack := [rootFrame s.cfg.W s.cfg.H] }

/-- The symbol of a class that a node step finishes; none for CACHED, which waits for the cache (R180). -/
def NodeClass.symbol : NodeClass → Option Instr
  | .skip => some .skip
  | .flat => some .flat
  | .deep => some .deep
  | .quad => some .quad
  | .splitx => some .splitx
  | .splity => some .splity
  | .leaf => some .leaf
  | .cached => none

/-- The symbol of a cache answer (R209). An ERROR faults in either; the model takes it as MISS. -/
def respSymbol : Resp → Instr
  | .hit _ => .hit
  | .inserted => .miss
  | .error => .miss

/-- The symbol the block emits next: the node's class in ACTIVE (R175), the cache's answer in CACHE_WAIT (R209). -/
def State.nextSymbol (s : State) : Option Instr :=
  match s.phase with
  | .idle => none
  | .active =>
    match s.enabledNode with
    | some (p, fr) => (s.classOf p fr).symbol
    | none => none
  | .cacheWait => s.pending.map fun pd => respSymbol (cacheLookup s.cache pd.key).2

/-! ### Setting a symbol up (log entry 18) -/

/-- A configuration under which a node can be given any symbol. -/
def primeCfg : Instr → RunCfg
  | .skip => { RunCfg.reset with W := 2, H := 2, M := 1, maxdepth := 1, refEn := true }
  | .quad => { RunCfg.reset with W := 2, H := 2, M := 1, maxdepth := 1, lazy := 1 }
  | .splitx => { RunCfg.reset with W := 2, H := 1, M := 1, maxdepth := 1, lazy := 1 }
  | .splity => { RunCfg.reset with W := 1, H := 2, M := 1, maxdepth := 1, lazy := 1 }
  | .deep => { RunCfg.reset with W := 2, H := 2, M := 1, maxdepth := 1, lazy := 2 }
  | .leaf => { RunCfg.reset with W := 2, H := 2, M := 1, maxdepth := 2, lazy := 2 }
  | .hit | .miss => { RunCfg.reset with W := 2, H := 2, M := 1, maxdepth := 2, lazy := 2, cacheEn := true }
  | .flat | .regwr _ _ | .regrd _ _ | .start _ _ | .ack _ => { RunCfg.reset with W := 2, H := 2, M := 1, maxdepth := 1 }

/-- The frame of that node: the root for a split, the top-left pixel at depth 1 otherwise. -/
def primeFrame (i : Instr) : Frame :=
  match i with
  | .quad | .splitx | .splity => rootFrame (primeCfg i).W (primeCfg i).H
  | .regwr _ _ | .regrd _ _ | .start _ _ | .ack _ | .skip | .flat | .deep | .leaf | .hit | .miss => ⟨0, 0, 1, 1, 1⟩

/-- The registers of a run under a configuration. -/
def Regs.ofCfg (r : Regs) (c : RunCfg) : Regs :=
  { r with
    busy := true, done := false, fault := false, errcode := 0, faultAddr := 0, keyframe := !c.refEn
    width := BitVec.ofNat 32 c.W, height := BitVec.ofNat 32 c.H, minsize := BitVec.ofNat 32 c.M
    maxdepth := BitVec.ofNat 8 c.maxdepth, lazyness := BitVec.ofNat 8 c.lazy
    colordiff := c.colordiff, bgra := c.bgra, refEn := c.refEn, cacheEn := c.cacheEn
    indexbits := BitVec.ofNat 6 c.indexbits
    imgBase := BitVec.ofNat 32 c.imgBase, refBase := BitVec.ofNat 32 c.refBase }

/-- A run in which the next node step handles `fr` under `c`. -/
def State.primeNode (s : State) (c : RunCfg) (fr : Frame) : State :=
  { s with
    regs := s.regs.ofCfg c, cfg := c, phase := .active, passes := [.full], stack := [fr], queue := [], pending := none
    unstable := [] }

/-- A run that waits for the cache, which holds the block in slot 0 or nothing, and answers. -/
def State.primeRequest (s : State) (held : Bool) (c : RunCfg) (fr : Frame) : State :=
  let t := s.primeNode c fr
  let key := keyOf c.bgra t.P fr .full
  { t with
    phase := .cacheWait, stack := []
    pending := some { frame := fr, head := splitTokens c, fmt := .full, key := key }
    cache := { slots := if held then [(0, key)] else [], failing := [], policy := s.cache.policy }
    cacheReady := true }

/-- The state with a run set up so that the block's next step emits the symbol `i`; a host operation leaves it as it is. -/
def State.primeSymbol (s : State) (i : Instr) : State :=
  match i with
  | .skip | .flat | .quad | .splitx | .splity | .deep | .leaf => s.primeNode (primeCfg i) (primeFrame i)
  | .hit => s.primeRequest true (primeCfg i) (primeFrame i)
  | .miss => s.primeRequest false (primeCfg i) (primeFrame i)
  | .regwr _ _ | .regrd _ _ | .start _ _ | .ack _ => s

end Sys2Proof.Machine
end

