-- ==== Sys2Proof/Machine/Events.lean ====
section
/-! DEFINITION. One event of the schedule, the block's own step, and where an instruction is placed to be run next. -/

namespace Sys2Proof.Machine

/-- The one step that the block, the cache or a sink can take (R332); at most one is enabled. A token whose sink does not
accept, a request the cache does not answer, and IDLE leave everything as it is (R182, R188, R306). -/
def ownStep (s : State) : Host.Outcome State Fault Refusal :=
  match s.phase with
  | .idle => .next s
  | .active =>
    match s.queue with
    | t :: q => .next (if s.sinks.accepts t.port then s.transfer t q else s)
    | [] =>
      match s.stack with
      | [] => .next s.passEnd
      | _ :: _ =>
        match s.nextSymbol with
        | some i => exec i s
        | none => s.sendRequest
  | .cacheWait =>
    if s.cacheReady then
      match s.nextSymbol with
      | some i => exec i s
      | none => .refused .noRequestOutstanding
    else .next s

/-- One event, in the state from whose schedule it was taken (R20, R334). -/
def runEvent (e : Event) (s : State) : Host.Outcome State Fault Refusal :=
  match e with
  | .access w => exec (decodeHost w) s
  | .oddWidthAccess write => .next (if write then s.refuseWrite else s.refuseRead)
  | .reset => .next s.assertReset
  | .own => ownStep s
  | .setReady p ready => .next { s with sinks := s.sinks.setReady ready p }
  | .setCacheReady ready => .next { s with cacheReady := ready }
  | .memWrite a v => if a < 2 ^ s.build.addrW then .next (s.hostMemWrite a v) else .fault (.noSuchAddress a)
  | .cacheLoad c => .next { s with cache := c }
  | .drainSinks => .next { s with sinks := { s.sinks with cmd := [], idx := [], pix := [] } }

/-- The next thing the machine does: the first event of the schedule, or, with none left, the block's own step. -/
def nextMove (s : State) : Host.Outcome State Fault Refusal :=
  match s.schedule with
  | [] => ownStep s
  | e :: rest => runEvent e { s with schedule := rest }

/-- The state in which `nextMove` runs the instruction whose table bits are `w`: a host access heads the schedule; for a symbol
a run is set up in which the block emits it next (log entries 3 and 18). -/
def placeWord (s : State) (nbits w : Nat) : State :=
  if nbits ≤ 8 then
    match decodeTableWord nbits w with
    | some i => { s.primeSymbol i with schedule := .own :: s.schedule }
    | none => s
  else { s with schedule := .access (BitVec.ofNat 39 w) :: s.schedule }

end Sys2Proof.Machine
end

