-- ==== Sys2Proof/Machine/Step.lean ====
section
/-! DEFINITION. The machine's one step. -/

namespace Sys2Proof.Machine

/-- One step: the next event of the schedule, or the block's own step (R332, R334). -/
def step (s : State) : Host.Outcome State Fault Refusal := nextMove s

/-- `s` with the instruction whose table bits are `w` placed where `step` takes its next instruction from. -/
def State.withFetchWord (s : State) (nbits w : Nat) : State := placeWord s nbits w

end Sys2Proof.Machine
end

