-- ==== Sys2Proof/Machine/Encode.lean ====
section
/-! DEFINITION. The recursive definition of a run's outputs, R185, over any cache model. -/

namespace Sys2Proof.Machine

/-- The three token sequences of a run (R15, R111). An index token is a value and the width it is written with (R100, R108). -/
structure Streams where
  cmd : List Bool
  idx : List IdxBeat
  pix : List Byte
deriving DecidableEq, Repr

/-- The sequences on the three ports of a token sequence, index tokens `indexbits` wide (R102, R108). -/
def streamsOf (indexbits : Nat) (ts : List Token) : Streams :=
  { cmd := ts.filterMap fun t => match t with | .cmd b => some b | .idx _ => none | .pix _ => none
    idx := ts.filterMap fun t => match t with | .idx i => some ⟨i, indexbits⟩ | .cmd _ => none | .pix _ => none
    pix := ts.filterMap fun t => match t with | .pix v => some v | .cmd _ => none | .idx _ => none }

/-- The outputs and the cache state of a list of subtrees, in order. -/
def encodeList {C : Type} (f : Frame → C → Option (List Token × C)) : List Frame → C → Option (List Token × C)
  | [], c => some ([], c)
  | fr :: frs, c =>
    match f fr c with
    | none => none
    | some (ts, c1) =>
      match encodeList f frs c1 with
      | none => none
      | some (us, c2) => some (ts ++ us, c2)

/-- The node's own tokens before those of its children. -/
def withHead {C : Type} (head : List Token) : Option (List Token × C) → Option (List Token × C)
  | none => none
  | some (ts, c) => some (head ++ ts, c)

/-- A minimum-size leaf resolved by the cache (R207 to R209); none where the answer faults. -/
def encodeCached {C : Type} (cfg : RunCfg) (key : Key) : C × Resp → Option (List Token × C)
  | (c, .hit i) => if i < 2 ^ cfg.indexbits then some (hitTokens cfg i, c) else none
  | (c, .inserted) => some (missTokens cfg key.bytes, c)
  | (_, .error) => none

/-- `EncodeNode` (R185): the tokens of a subtree in queue order and the cache state it leaves; none where the cache faults. The
first number bounds the depth of the recursion (log entry 26): a node at depth `d` needs `maxdepth - d + 1`. -/
def encodeNode {C : Type} (M : CacheModel C) (cfg : RunCfg) (P Q : Image) (p : Pass) :
    Nat → Frame → C → Option (List Token × C)
  | 0, _, _ => none
  | n + 1, fr, c =>
    match classify cfg P Q fr p with
    | .skip => some (skipTokens, c)
    | .flat => some (flatTokens cfg P fr p, c)
    | .deep => some (rawTokens cfg P fr p, c)
    | .leaf => some (rawTokens cfg P fr p, c)
    | .quad => withHead (splitTokens cfg) (encodeList (encodeNode M cfg P Q p n) (quadChildren fr) c)
    | .splitx => withHead (splitTokens cfg) (encodeList (encodeNode M cfg P Q p n) (splitxChildren fr) c)
    | .splity => withHead (splitTokens cfg) (encodeList (encodeNode M cfg P Q p n) (splityChildren fr) c)
    | .cached => encodeCached cfg (keyOf cfg.bgra P fr p) (M.lookup c (keyOf cfg.bgra P fr p))

/-- The passes in order, each from the cache state the one before left (R171, R183). -/
def encodePasses {C : Type} (M : CacheModel C) (cfg : RunCfg) (P Q : Image) : List Pass → C → Option (List Token × C)
  | [], c => some ([], c)
  | p :: ps, c =>
    match encodeNode M cfg P Q p (cfg.maxdepth + 1) (rootFrame cfg.W cfg.H) c with
    | none => none
    | some (ts, c1) => withHead ts (encodePasses M cfg P Q ps c1)

/-- `EncodeRun` (R185): the tokens of a run in the order they leave, and the final cache state. -/
def encodeRun {C : Type} (M : CacheModel C) (cfg : RunCfg) (P Q : Image) (c0 : C) : Option (List Token × C) :=
  encodePasses M cfg P Q (passList cfg.colordiff) c0

end Sys2Proof.Machine
end

