-- ==== Sys2Proof/Machine/RefDecoder.lean ====
section
/-! DEFINITION. quadtree_decoder_fsm as the reference function of R250 to R257. -/

namespace Sys2Proof.Machine

/-- The decoder's configuration (R250): no lazyness. -/
structure DecCfg where
  W : Nat
  H : Nat
  M : Nat
  maxdepth : Nat
  keyframe : Bool
  colordiff : BitVec 2
  bgra : Bool
  cacheEn : Bool
  indexbits : Nat
deriving DecidableEq, Repr

/-- `dcfg` of an encoder's `cfg`: without `lazy`, with `keyframe = NOT ref_en` (R250, R35). -/
def RunCfg.toDec (c : RunCfg) : DecCfg :=
  { W := c.W, H := c.H, M := c.M, maxdepth := c.maxdepth, keyframe := !c.refEn, colordiff := c.colordiff, bgra := c.bgra,
    cacheEn := c.cacheEn, indexbits := c.indexbits }

/-- The output image under construction: none is a byte that nothing has written, whose value is unspecified (R253). -/
abbrev Canvas := Nat → Nat → Channel → Option Byte

/-- What a decode carries along: the sequences still to read, the output, the cache (R250, R251). -/
structure DecState (C : Type) where
  cmd : List Bool
  idx : List IdxBeat
  pix : List Byte
  out : Canvas
  cache : C

/-- The three outcomes of a decode (R250, R255, R256), each with the cache state reached. -/
inductive DecResult (C : Type) where
  | ok (st : DecState C)
  | fail (cache : C)
  | undef (cache : C)

/-- Go on only after an `ok` (R255, R256). -/
def DecResult.andThen {C : Type} (r : DecResult C) (f : DecState C → DecResult C) : DecResult C :=
  match r with
  | .ok st => f st
  | .fail c => .fail c
  | .undef c => .undef c

/-- Whether (x, y) lies in a region (R13). -/
def Frame.contains (fr : Frame) (x y : Nat) : Bool :=
  decide (fr.x1 ≤ x ∧ x < fr.x2) && decide (fr.y1 ≤ y ∧ y < fr.y2)

/-- `unpack(bs, p)` (R252): the inverse of `pixBytes`, a value for each channel in the mask. -/
def unpack (bgra : Bool) (bs : List Byte) (p : Pass) (c : Channel) : Option Byte := ((payloadOrder bgra p).zip bs).lookup c

/-- `write` over a region (R252): at each pixel, the masked channels take the given values; all other bytes stay. -/
def Canvas.writeRegion (out : Canvas) (fr : Frame) (p : Pass) (vals : Nat → Nat → Channel → Option Byte) : Canvas :=
  fun x y c => if fr.contains x y && (maskOf p).contains c then vals x y c else out x y c

/-- `WriteRaw` (R254): the j-th pixel of the region in row-major order takes the j-th group of `nb(p)` bytes. -/
def Canvas.writeRaw (out : Canvas) (bgra : Bool) (fr : Frame) (bs : List Byte) (p : Pass) : Canvas :=
  out.writeRegion fr p fun x y c =>
    unpack bgra ((bs.drop (((y - fr.y1) * fr.w + (x - fr.x1)) * nb p)).take (nb p)) p c

/-- `ReadBytes(n)` (R251): past the end the whole decode fails (R255). -/
def DecState.readBytes {C : Type} (st : DecState C) (n : Nat) (f : List Byte → DecState C → DecResult C) : DecResult C :=
  if n ≤ st.pix.length then f (st.pix.take n) { st with pix := st.pix.drop n } else .fail st.cache

/-- `ReadIdx` (R251): the next index token, read with the decoder's width. A token of that width gives its value. One of another
width is misread: past the end, or a value that fits the decoder's width, from a place further on (R237; log entry 31). -/
def DecState.readIdx {C : Type} (st : DecState C) (width : Nat) (f : Nat → DecState C → DecResult C) : DecResult C :=
  match st.idx with
  | [] => .fail st.cache
  | b :: rest =>
    if b.width = width ∧ b.data < 2 ^ width then f b.data { st with idx := rest }
    else
      match Config.misreadIdx width st.idx with
      | none => .fail st.cache
      | some (v, n) => f (v % 2 ^ width) { st with idx := st.idx.drop n }

/-- The context a node is decoded in (R110). -/
def DecCfg.ctx (d : DecCfg) (fr : Frame) : SymCtx :=
  { refEn := !d.keyframe, cacheEn := d.cacheEn, atCeiling := decide (fr.d = d.maxdepth), wExceeds := decide (d.M < fr.w),
    hExceeds := decide (d.M < fr.h) }

/-- The children's decodes in order, while they succeed. -/
def decodeList {C : Type} (f : Frame → DecState C → DecResult C) : List Frame → DecState C → DecResult C
  | [], st => .ok st
  | fr :: frs, st => (f fr st).andThen (decodeList f frs)

/-- `ReadRawInto` (R254). -/
def readRawInto {C : Type} (d : DecCfg) (fr : Frame) (p : Pass) (st : DecState C) : DecResult C :=
  st.readBytes (fr.w * fr.h * nb p) fun bs st1 => .ok { st1 with out := st1.out.writeRaw d.bgra fr bs p }

/-- MISS (R254): the raw payload, which the cache then adds. -/
def decodeMiss {C : Type} (M : CacheModel C) (d : DecCfg) (fr : Frame) (p : Pass) (st : DecState C) : DecResult C :=
  st.readBytes (fr.w * fr.h * nb p) fun bs st1 =>
    .ok { st1 with out := st1.out.writeRaw d.bgra fr bs p, cache := M.add st1.cache ⟨p, fr.w, fr.h, bs⟩ }

/-- HIT (R254): the slot's content; a slot that holds no key of this format and shape makes the result Undefined (R256). -/
def decodeHit {C : Type} (M : CacheModel C) (d : DecCfg) (fr : Frame) (p : Pass) (st : DecState C) : DecResult C :=
  st.readIdx d.indexbits fun i st1 =>
    match M.holds st1.cache i with
    | none => .undef st1.cache
    | some k =>
      if k.fmt = p ∧ k.w = fr.w ∧ k.h = fr.h then
        .ok { st1 with out := st1.out.writeRaw d.bgra fr k.bytes p, cache := M.touch st1.cache i }
      else .undef st1.cache

/-- The reference's byte, where there is a reference (R250). -/
def refByte (ref : Option Image) (x y : Nat) (c : Channel) : Option Byte := ref.map fun r => (r x y).get c

/-- `DecodeNode` (R254): the symbol by R110's tree, then its effect. The number bounds the depth of the recursion (log entry
26): a node at depth `d ≤ maxdepth` needs `maxdepth - d + 1`. -/
def decodeNode {C : Type} (M : CacheModel C) (d : DecCfg) (ref : Option Image) (p : Pass) :
    Nat → Frame → DecState C → DecResult C
  | 0, _, st => .fail st.cache
  | n + 1, fr, st =>
    match decodeSymbol (d.ctx fr) st.cmd with
    | .error _ => .fail st.cache
    | .ok (i, rest) =>
      let st1 := { st with cmd := rest }
      match i with
      | .skip => .ok { st1 with out := st1.out.writeRegion fr p (refByte ref) }
      | .flat =>
        st1.readBytes (nb p) fun bs st2 =>
          .ok { st2 with out := st2.out.writeRegion fr p fun _ _ c => unpack d.bgra bs p c }
      | .deep => readRawInto d fr p st1
      | .leaf => readRawInto d fr p st1
      | .quad => decodeList (decodeNode M d ref p n) (quadChildren fr) st1
      | .splitx => decodeList (decodeNode M d ref p n) (splitxChildren fr) st1
      | .splity => decodeList (decodeNode M d ref p n) (splityChildren fr) st1
      | .miss => decodeMiss M d fr p st1
      | .hit => decodeHit M d fr p st1
      | .regwr _ _ | .regrd _ _ | .start _ _ | .ack _ => .fail st1.cache

/-- The passes in order. -/
def decodePasses {C : Type} (M : CacheModel C) (d : DecCfg) (ref : Option Image) : List Pass → DecState C → DecResult C
  | [], st => .ok st
  | p :: ps, st =>
    (decodeNode M d ref p (d.maxdepth + 1) (rootFrame d.W d.H) st).andThen (decodePasses M d ref ps)

/-- The output's initial contents (R253): the reference where `colordiff = 2` and the frame is no keyframe, unset otherwise. -/
def seedCanvas (d : DecCfg) (ref : Option Image) : Canvas :=
  if d.colordiff = 2 ∧ d.keyframe = false then refByte ref else fun _ _ _ => none

/-- `Decode` (R250): tokens left over at the end are ignored (R257); the result shows them. -/
def decode {C : Type} (M : CacheModel C) (d : DecCfg) (s : Streams) (ref : Option Image) (c0 : C) : DecResult C :=
  decodePasses M d ref (passList d.colordiff)
    { cmd := s.cmd, idx := s.idx, pix := s.pix, out := seedCanvas d ref, cache := c0 }

end Sys2Proof.Machine
end

