-- ==== Sys2Proof/Safety.lean ====
section
/-! DEFINITION. The invariant every step keeps, in the terms claims use: what the rules say of the machine between steps. -/

namespace Sys2Proof.Machine

/-- A frame of a run: a non-empty region of the image (R179, R189), no deeper than `maxdepth` (R176), and with no more
halvings left to it than its depth leaves of the root's (R178). -/
structure Frame.Ok (c : RunCfg) (fr : Frame) : Prop where
  xs : fr.x1 < fr.x2
  ys : fr.y1 < fr.y2
  inW : fr.x2 ≤ c.W
  inH : fr.y2 ≤ c.H
  depth : fr.d ≤ c.maxdepth
  halvings : fr.d + max (kDepth c.M fr.w) (kDepth c.M fr.h) ≤ max (kDepth c.M c.W) (kDepth c.M c.H)

/-- Under each frame of the stack lie at most three for each level above its own (R42). -/
def StackOk : List Frame → Prop
  | [] => True
  | fr :: rest => rest.length ≤ 3 * fr.d ∧ StackOk rest

/-- The node waiting for the cache (R41): a minimum-size node of the current pass, its tokens, its format, and a key of its
shape. -/
structure Pending.Ok (c : RunCfg) (passes : List Pass) (pd : Pending) : Prop where
  frame : pd.frame.Ok c
  cached : classifyNonFlat c pd.frame = .cached
  pass : passes.head? = some pd.fmt
  head : pd.head = splitTokens c
  fmt : pd.key.fmt = pd.fmt
  w : pd.key.w = pd.frame.w
  h : pd.key.h = pd.frame.h
  bytes : pd.key.bytes.length = pd.frame.w * pd.frame.h * nb pd.fmt

/-- What holds of the host registers between steps (R22, R23, R34, R36, R280). -/
structure Regs.Ok (b : Build) (r : Regs) : Prop where
  width : r.width.toNat < 2 ^ b.coordW
  height : r.height.toNat < 2 ^ b.coordW
  minsize : r.minsize.toNat < 2 ^ b.coordW
  imgBase : r.imgBase.toNat < 2 ^ b.addrW
  refBase : r.refBase.toNat < 2 ^ b.addrW
  faultAddr : r.faultAddr.toNat < 2 ^ b.addrW
  notBoth : ¬(r.done = true ∧ r.fault = true)
  busyClear : r.busy = true → r.done = false ∧ r.fault = false
  errcode : r.errcode.toNat ≤ 9
  errcodeFault : r.errcode ≠ 0 ↔ r.fault = true
  faultAddrMem : r.errcode ≠ 8 → r.faultAddr = 0

/-- The invariant of the machine. -/
structure State.Inv (s : State) : Prop where
  /-- The build is one R8 allows. -/
  build : s.build.Legal
  /-- Memory is in canonical form and inside the address space (R70). -/
  memWf : Memory.wf s.mem
  memSpace : ∀ c ∈ s.mem, c.1 < 2 ^ s.build.addrW
  regs : s.regs.Ok s.build
  /-- IDLE holds exactly when BUSY = 0 (R39). -/
  phaseBusy : s.phase = .idle ↔ s.regs.busy = false
  /-- IDLE has no control state (R47, R283, R184). -/
  idleEmpty : s.phase = .idle → s.passes = [] ∧ s.stack = [] ∧ s.queue = [] ∧ s.pending = none
  /-- Only CACHE_WAIT uses `pending` (R41), and its node has queued nothing (R180). -/
  activePending : s.phase = .active → s.pending = none
  waitPending : s.phase = .cacheWait → s.queue = [] ∧ ∃ pd, s.pending = some pd ∧ pd.Ok s.cfg s.passes
  /-- During a run `cfg` equals the registers (R38), passed START's check (R282), and KEYFRAME is `NOT ref_en` (R35). -/
  cfgRegs : s.regs.busy = true → s.cfg = s.regs.toCfg
  cfgChecked : s.regs.busy = true → configCheck s.build s.cfg = none
  keyframe : s.regs.busy = true → s.regs.keyframe = !s.cfg.refEn
  /-- The passes not finished are the end of the pass list, and at least one (R40, R171). -/
  passes : s.regs.busy = true → s.passes ≠ [] ∧ s.passes <:+ passList s.cfg.colordiff
  /-- The frames of the stack (R40, R42, R179). -/
  frames : ∀ fr ∈ s.stack, fr.Ok s.cfg
  stack : StackOk s.stack
  /-- A queued index fits INDEXBITS (R108, R114). -/
  queue : ∀ i, Token.idx i ∈ s.queue → i < 2 ^ s.cfg.indexbits

/-- A state in which nothing outside the block holds it up: no input waits, every sink accepts, the cache answers (R188, R328). -/
structure State.Free (s : State) : Prop where
  schedule : s.schedule = []
  cmd : s.sinks.cmdReady = true
  idx : s.sinks.idxReady = true
  pix : s.sinks.pixReady = true
  cache : s.cacheReady = true

/-- The one input on which the machine stops: a host write outside the address space (R70; log entry 13). -/
def Event.OutOfSpace (b : Build) : Event → Prop
  | .memWrite a _ => 2 ^ b.addrW ≤ a
  | .access _ | .oddWidthAccess _ | .reset | .own | .setReady _ _ | .setCacheReady _ | .cacheLoad _ | .drainSinks => False

/-! ### Terms the statements use -/

/-- The configuration registers, access RW-I (R22). -/
def Reg.isConfig : Reg → Bool
  | .width | .height | .minsize | .maxdepth | .lazyness | .mode | .transform | .imgBase | .refBase => true
  | .ctrl | .status | .cmdBits | .idxCount | .pixBytes | .faultAddr | .reserved => false

/-- The read-only registers and the reserved offset: writes are ignored (R22, R113). -/
def Reg.ignoresWrites : Reg → Bool
  | .cmdBits | .idxCount | .pixBytes | .faultAddr | .reserved => true
  | .ctrl | .status | .width | .height | .minsize | .maxdepth | .lazyness | .mode | .transform | .imgBase | .refBase => false

/-- The bits of a configuration register that are not reserved (R22). -/
def Reg.cfgMask (b : Build) : Reg → Word
  | .width | .height | .minsize => BitVec.ofNat 32 (2 ^ b.coordW - 1)
  | .maxdepth | .lazyness => 0x000000FF#32
  | .mode => 0x00003F1F#32
  | .transform => 0xFFFFFFFF#32
  | .imgBase | .refBase => BitVec.ofNat 32 (2 ^ b.addrW - 1)
  | .ctrl | .status | .cmdBits | .idxCount | .pixBytes | .faultAddr | .reserved => 0

/-- The cause of each configuration fault, the table of R280 (R284 to R290). -/
def ConfigFails (b : Build) (c : RunCfg) : RunFault → Prop
  | .cfgArea => c.W = 0 ∨ c.H = 0
  | .cfgMinsize => c.M = 0
  | .cfgMindim => c.W ≤ c.M ∧ c.H ≤ c.M
  | .cfgColordiff => c.colordiff = 3
  | .cfgIndexbits => c.cacheEn = true ∧ b.indexbitsMax < c.indexbits
  | .cfgDepth => b.maxHwDepth < min c.maxdepth (max (kDepth c.M c.W) (kDepth c.M c.H))
  | .cfgAddr => ∃ base, (base = c.imgBase ∨ (c.refEn = true ∧ base = c.refBase)) ∧
      (base % 4 ≠ 0 ∨ 2 ^ b.addrW < base + 4 * c.W * c.H)
  | .mem | .cache => False

/-- A host access leaves all but the registers and the bus as they were, and every byte of memory reads as before. -/
def HostFrame (s t : State) : Prop :=
  t = { s with regs := t.regs, host := t.host } ∧ ∀ a, Memory.read t.mem a = Memory.read s.mem a

/-- A node step leaves all but the stack, the queue, the working registers and the draw counter as they were (R180): every
register, the sinks, the cache, and every byte of memory. -/
def NodeFrame (s t : State) : Prop :=
  t = { s with stack := t.stack, queue := t.queue, work := t.work, freeCtr := t.freeCtr } ∧
    ∀ a, Memory.read t.mem a = Memory.read s.mem a

/-- A node step is enabled for the frame `fr` in the pass `p` over the frames `rest` (R173), and no pixel of its read set errs
(R181). -/
structure NodeReady (s : State) (p : Pass) (fr : Frame) (rest : List Frame) : Prop where
  phase : s.phase = .active
  queue : s.queue = []
  pass : s.passes.head? = some p
  stack : s.stack = fr :: rest
  reads : ∀ a ∈ s.readSet fr, Build.errs s.build a = false

/-- Two images agree on the channels of a mask over a region (R151, R152). -/
def AgreeOn (P Q : Image) (fr : Frame) (mk : List Channel) : Prop :=
  ∀ x y, fr.x1 ≤ x → x < fr.x2 → fr.y1 ≤ y → y < fr.y2 → ∀ c ∈ mk, (P x y).get c = (Q x y).get c

/-- The node is not lazy, is no SKIP, and is uniform under the mask (R201, R153). -/
def SelectsFlat (c : RunCfg) (P Q : Image) (fr : Frame) (p : Pass) : Prop :=
  c.lazy ≤ fr.d ∧ ¬(c.refEn = true ∧ AgreeOn P Q fr (maskOf p)) ∧ AgreeOn P (fun _ _ => P fr.x1 fr.y1) fr (maskOf p)

/-- The node is lazy, or it is neither a SKIP nor uniform (R174, R175): the non-flat bit 0. -/
def SelectsNonFlat (c : RunCfg) (P Q : Image) (fr : Frame) (p : Pass) : Prop :=
  fr.d < c.lazy ∨
    (¬(c.refEn = true ∧ AgreeOn P Q fr (maskOf p)) ∧ ¬AgreeOn P (fun _ _ => P fr.x1 fr.y1) fr (maskOf p))

/-- What a fault entry leaves (R283): the flags, the code, the address, IDLE, no control state; the counters, KEYFRAME, the
configuration registers, memory, cache, sinks and bus as they were in `s`. -/
structure FaultEntered (s t : State) (code : BitVec 4) (info : Word) : Prop where
  regs : t.regs = { s.regs with fault := true, errcode := code, done := false, faultAddr := info, busy := false }
  phase : t.phase = .idle
  passes : t.passes = []
  stack : t.stack = []
  queue : t.queue = []
  pending : t.pending = none
  sinks : t.sinks = s.sinks
  mem : ∀ a, Memory.read t.mem a = Memory.read s.mem a
  rest : t.build = s.build ∧ t.cfg = s.cfg ∧ t.host = s.host ∧ t.schedule = s.schedule ∧ t.unstable = s.unstable ∧
    t.cacheReady = s.cacheReady

/-- A list of frames one level down, none of them empty, such that each pixel of the parent lies in exactly one of them, and no
other pixel lies in any (R177, R179). -/
def Partition (fr : Frame) (cs : List Frame) : Prop :=
  (∀ c ∈ cs, c.x1 < c.x2 ∧ c.y1 < c.y2 ∧ c.d = fr.d + 1) ∧
    ∀ x y, (cs.filter fun c => decide (c.x1 ≤ x ∧ x < c.x2 ∧ c.y1 ≤ y ∧ y < c.y2)).length =
      if fr.x1 ≤ x ∧ x < fr.x2 ∧ fr.y1 ≤ y ∧ y < fr.y2 then 1 else 0

end Sys2Proof.Machine
end

