-- ==== Sys2Proof/Certificates/Slice0/Obligations.lean ====
section
/-! DEFINITION. The statements for the provers. Each docstring names the rules it formalises. -/

open Sys2Proof Sys2Proof.Machine

/-! ### Encoding -/

/-- R104, R105, R110: what an encoding says is what is decoded, for every instruction and every operand. -/
def Obligations.DecodeOfEncodeIsIdentity : Prop :=
  ∀ i : Instr, i.wf = true →
    (∀ w, encodeHost i = some w → decodeHost w = i) ∧
    (∀ (c : SymCtx) (bits rest : List Bool), c.admits i = true → encodeSymbol c.refEn i = some bits →
      decodeSymbol c (bits ++ rest) = .ok (i, rest)) ∧
    ((encodeHost i).isSome = true ∨ ∃ c : SymCtx, c.admits i = true ∧ (encodeSymbol c.refEn i).isSome = true)

/-- R104, R113: every 39-bit access is the access of exactly one well-formed host operation; no bit is dropped. -/
def Obligations.EveryHostAccessIsOneOperation : Prop :=
  ∀ w : BitVec 39, (decodeHost w).wf = true ∧ encodeHost (decodeHost w) = some w

/-- R110, R114: whatever symbol is read was admitted by its context, and was read from its own command bits alone. -/
def Obligations.DecodedSymbolIsAdmittedByItsContext : Prop :=
  ∀ (c : SymCtx) (bits rest : List Bool) (i : Instr), decodeSymbol c bits = .ok (i, rest) →
    c.admits i = true ∧ ∃ cmd, encodeSymbol c.refEn i = some cmd ∧ bits = cmd ++ rest

/-- R114: the only ill-formed command stream is one that ends inside a symbol. -/
def Obligations.SymbolDecodingFailsOnlyOnExhaustion : Prop :=
  ∀ (c : SymCtx) (bits : List Bool) (e : DecodeError), decodeSymbol c bits = .error e →
    e = .streamExhausted ∧ bits.length ≤ 2 ∧ ∃ (i : Instr) (more : List Bool), decodeSymbol c (bits ++ more) = .ok (i, [])

/-- R104, R105, 95_test_vectors.md L3: words written out from the spec's encodings decode to what they stand for. -/
def Obligations.SpecWordsDecode : Prop :=
  decodeHost 0x4800000004#39 = .regwr 0x08 4 ∧ decodeHost 0x0400000000#39 = .regrd 0x04 0 ∧
  decodeHost 0x4000000003#39 = .start 0 true ∧ decodeHost 0x4400000006#39 = .ack 6 ∧
  decodeSymbol ⟨true, false, false, true, true⟩ [false] = .ok (.skip, []) ∧
  decodeSymbol ⟨true, false, false, true, true⟩ [true, true] = .ok (.flat, []) ∧
  decodeSymbol ⟨true, true, false, false, false⟩ [true, false, false] = .ok (.hit, []) ∧
  decodeSymbol ⟨false, true, false, false, false⟩ [false, true] = .ok (.miss, []) ∧
  decodeSymbol ⟨false, false, false, true, false⟩ [false] = .ok (.splitx, [])

/-! ### The step -/

/-- R104, R135 (the schedule is the model's choice, log entry 3): a host access at the head of the schedule is decoded and run
in the state from whose schedule it was taken. -/
def Obligations.StepRunsTheDecodedAccess : Prop :=
  ∀ (s : State) (w : BitVec 39) (rest : List Event), s.schedule = .access w :: rest →
    step s = exec (decodeHost w) { s with schedule := rest }

/-- R173, R175, R180, R209 (log entries 3, 14, 15): with no input waiting, a node step whose node classifies as a symbol runs
that symbol, a CACHED node sends its request, and an answer of the cache runs HIT or MISS. -/
def Obligations.StepRunsTheSelectedSymbol : Prop :=
  (∀ (s : State) (p : Pass) (fr : Frame) (rest : List Frame) (i : Instr), s.schedule = [] → s.phase = .active → s.queue = [] →
    s.passes.head? = some p → s.stack = fr :: rest → (s.classOf p fr).symbol = some i → step s = exec i s) ∧
  (∀ (s : State) (p : Pass) (fr : Frame) (rest : List Frame), s.schedule = [] → s.phase = .active → s.queue = [] →
    s.passes.head? = some p → s.stack = fr :: rest → s.classOf p fr = .cached → step s = s.sendRequest) ∧
  (∀ (s : State) (pd : Pending), s.schedule = [] → s.phase = .cacheWait → s.pending = some pd → s.cacheReady = true →
    step s = exec (respSymbol (platformCache.lookup s.cache pd.key).2) s) ∧
  (∀ (s : State) (rest : List Event), s.schedule = .own :: rest →
    (∀ t, step { s with schedule := [] } = .next t → step s = .next { t with schedule := rest }) ∧
    (∀ r, step { s with schedule := [] } = .refused r → step s = .refused r))

/-! ### Host operations -/

/-- R130, R22, R23: a write to a configuration register while BUSY = 0 stores the bits its fields hold, and no other register
and nothing else changes. -/
def Obligations.RegwrStoresTheFieldBits : Prop :=
  ∀ (s : State) (off : BitVec 6) (v : Word) (r : Reg), regAt off = some r → r.isConfig = true → s.regs.busy = false →
    ∃ t, exec (.regwr off v) s = .next t ∧ t.regs.read r = (r.cfgMask s.build &&& v) ∧
      (∀ r', r' ≠ r → t.regs.read r' = s.regs.read r') ∧ HostFrame s t ∧ t.host = { s.host with err := false }

/-- R130, R22, R326: a write to a configuration register while BUSY = 1, or to a read-only or reserved offset, changes nothing. -/
def Obligations.RegwrIgnoredWrites : Prop :=
  ∀ (s : State) (off : BitVec 6) (v : Word) (r : Reg), regAt off = some r →
    ((r.isConfig = true ∧ s.regs.busy = true) ∨ r.ignoresWrites = true) →
    exec (.regwr off v) s = .next { s with host := { s.host with err := false } }

/-- R130, R37, R297: a write to CTRL with bit 0 clear writes IRQ_EN alone, at any time, and `irq` follows at once. A write that
the table calls START or ACK acts as they do. -/
def Obligations.RegwrCtrlAndStatus : Prop :=
  (∀ (s : State) (v : Word), v.getLsbD 0 = false → ∃ t, exec (.regwr 0x00 v) s = .next t ∧
    t.regs = { s.regs with irqEn := v.getLsbD 1 } ∧ t.irq = (v.getLsbD 1 && (s.regs.done || s.regs.fault)) ∧
    HostFrame s t ∧ t.host = { s.host with err := false }) ∧
  (∀ (s : State) (v : Word), v.getLsbD 0 = true →
    exec (.regwr 0x00 v) s = exec (.start (v.extractLsb' 2 30) (v.getLsbD 1)) s) ∧
  (∀ (s : State) (v : Word), exec (.regwr 0x04 v) s = exec (.ack v) s)

/-- R333, R21: an access at an offset that is not 4-byte aligned, or not 32 bits wide, is refused: a write changes no state, a
read returns 0; the bus may report it as the platform chooses. -/
def Obligations.IllegalAccessIsRefused : Prop :=
  (∀ (s : State) (off : BitVec 6) (v : Word), alignedOffset off = false →
    exec (.regwr off v) s = .next { s with host := { s.host with err := s.build.reportsRefused } } ∧
    exec (.regrd off v) s = .next { s with host := { rdata := 0, err := s.build.reportsRefused } }) ∧
  (∀ (s : State) (rest : List Event), s.schedule = .oddWidthAccess true :: rest →
    step s = .next { s with schedule := rest, host := { s.host with err := s.build.reportsRefused } }) ∧
  (∀ (s : State) (rest : List Event), s.schedule = .oddWidthAccess false :: rest →
    step s = .next { s with schedule := rest, host := { rdata := 0, err := s.build.reportsRefused } })

/-- R131, R22, R113: a read at an aligned offset returns the register's fields and changes nothing else, whatever its data bits;
each of the sixteen offsets names its register, and no other offset names one. -/
def Obligations.RegrdReturnsTheRegister : Prop :=
  (∀ (s : State) (off : BitVec 6) (data : Word), alignedOffset off = true →
    ∃ r, regAt off = some r ∧ exec (.regrd off data) s = .next { s with host := { rdata := s.regs.read r, err := false } }) ∧
  (regAt 0x00 = some .ctrl ∧ regAt 0x04 = some .status ∧ regAt 0x08 = some .width ∧ regAt 0x0C = some .height ∧
    regAt 0x10 = some .minsize ∧ regAt 0x14 = some .maxdepth ∧ regAt 0x18 = some .lazyness ∧ regAt 0x1C = some .mode ∧
    regAt 0x20 = some .transform ∧ regAt 0x24 = some .imgBase ∧ regAt 0x28 = some .refBase ∧ regAt 0x2C = some .cmdBits ∧
    regAt 0x30 = some .idxCount ∧ regAt 0x34 = some .pixBytes ∧ regAt 0x38 = some .faultAddr ∧ regAt 0x3C = some .reserved) ∧
  ∀ off : BitVec 6, alignedOffset off = false → regAt off = none

/-- R22, R23, R131: where each field of every register stands in the words the host reads, reserved bits 0; the bits above a
field whose width the build fixes are 0 in every state that meets the invariant. -/
def Obligations.ReadWordsHaveTheFieldLayout : Prop :=
  (∀ r : Regs,
    (r.read .status).toNat =
      r.busy.toNat + 2 * r.done.toNat + 4 * r.fault.toNat + 256 * r.errcode.toNat + 65536 * r.keyframe.toNat ∧
    (r.read .mode).toNat =
      r.colordiff.toNat + 4 * r.bgra.toNat + 8 * r.refEn.toNat + 16 * r.cacheEn.toNat + 256 * r.indexbits.toNat ∧
    (r.read .ctrl).toNat = 2 * r.irqEn.toNat ∧
    (r.read .maxdepth).toNat = r.maxdepth.toNat ∧ (r.read .lazyness).toNat = r.lazyness.toNat ∧
    r.read .width = r.width ∧ r.read .height = r.height ∧ r.read .minsize = r.minsize ∧ r.read .transform = r.transform ∧
    r.read .imgBase = r.imgBase ∧ r.read .refBase = r.refBase ∧ r.read .cmdBits = r.cmdBits ∧
    r.read .idxCount = r.idxCount ∧ r.read .pixBytes = r.pixBytes ∧ r.read .faultAddr = r.faultAddr ∧
    r.read .reserved = 0) ∧
  ∀ s : State, s.Inv →
    (∀ r, r = .width ∨ r = .height ∨ r = .minsize → (s.regs.read r).toNat < 2 ^ s.build.coordW) ∧
    (∀ r, r = .imgBase ∨ r = .refBase ∨ r = .faultAddr → (s.regs.read r).toNat < 2 ^ s.build.addrW)

/-- R134: a START while BUSY = 1 is ignored, but for IRQ_EN. -/
def Obligations.StartWhileBusyOnlyWritesIrqEn : Prop :=
  ∀ (s : State) (rest : BitVec 30) (e : Bool), s.regs.busy = true →
    exec (.start rest e) s =
      .next { s with regs := { s.regs with irqEn := e }, host := { s.host with err := false } }

/-- R132, R172, R171, R35, R38: a START with a configuration that passes the check clears the outcome and the counters,
latches KEYFRAME and `cfg`, and begins a run at the root of the first pass; nothing else changes. -/
def Obligations.StartBeginsARun : Prop :=
  ∀ (s : State) (rest : BitVec 30) (e : Bool), s.regs.busy = false → configCheck s.build s.regs.toCfg = none →
    exec (.start rest e) s = .next { s with
      regs := { s.regs with
        irqEn := e, busy := true, done := false, fault := false, errcode := 0, faultAddr := 0
        cmdBits := 0, idxCount := 0, pixBytes := 0, keyframe := !s.regs.refEn }
      cfg := s.regs.toCfg, phase := .active
      passes := if s.regs.colordiff = 2 then [.luma, .chroma] else [.full]
      stack := [⟨0, 0, s.regs.width.toNat, s.regs.height.toNat, 0⟩]
      queue := [], unstable := [], host := { s.host with err := false } }

/-- R132, R283: a START with a configuration that fails the check enters the fault; no token, no memory read, no request. Like
any START while BUSY = 0 it empties the list of unstable bytes, which is the model's choice (log entry 11). -/
def Obligations.StartFaultsOnABadConfiguration : Prop :=
  ∀ (s : State) (rest : BitVec 30) (e : Bool) (f : RunFault), s.regs.busy = false →
    configCheck s.build s.regs.toCfg = some f →
    ∃ t, exec (.start rest e) s = .next t ∧ t.cache = s.cache ∧
      FaultEntered { s with
        regs := { s.regs with
          irqEn := e, cmdBits := 0, idxCount := 0, pixBytes := 0, keyframe := !s.regs.refEn }
        cfg := s.regs.toCfg, unstable := [], host := { s.host with err := false } } t f.code 0

/-- R282, R280, R284 to R290: the check reports the lowest code whose cause holds, and none exactly when none does. -/
def Obligations.ConfigCheckReportsTheLowestCode : Prop :=
  ∀ (b : Build) (c : RunCfg),
    (∀ f : RunFault, configCheck b c = some f ↔ ConfigFails b c f ∧ ∀ g : RunFault, g.code < f.code → ¬ConfigFails b c g) ∧
    (configCheck b c = none ↔ ∀ f : RunFault, ¬ConfigFails b c f)

/-- R178: `k` meets its equation when `M ≥ 1`, and is at most 31 for extents below 2^31. -/
def Obligations.DepthFunctionMeetsItsEquation : Prop :=
  ∀ M e : Nat, 1 ≤ M →
    (kDepth M e = if e ≤ M then 0 else 1 + kDepth M (e - e / 2)) ∧ (e < 2 ^ 31 → kDepth M e ≤ 31)

/-- R133, R297: ACK clears what its bits 1 and 2 name, and nothing else; clearing the last outcome lowers `irq`. -/
def Obligations.AckClearsWhatItNames : Prop :=
  ∀ (s : State) (v : Word), ∃ t, exec (.ack v) s = .next t ∧ HostFrame s t ∧ t.host = { s.host with err := false } ∧
    t.regs = { s.regs with
      done := s.regs.done && !v.getLsbD 1
      fault := s.regs.fault && !v.getLsbD 2
      errcode := if v.getLsbD 2 then 0 else s.regs.errcode
      faultAddr := if v.getLsbD 2 then 0 else s.regs.faultAddr } ∧
    (t.regs.done = false → t.regs.fault = false → t.irq = false)

/-! ### Reset -/

/-- R22, R47, R131: right after reset every 4-byte offset of the window reads 0, and the interrupt line is low. -/
def Obligations.AfterResetEveryOffsetReadsZero : Prop :=
  State.reset.irq = false ∧ ∀ (off : BitVec 6) (data : Word),
    ∃ t, exec (.regrd off data) State.reset = .next t ∧ t.host.rdata = 0

/-- R320, R321, R47: reset, from any state, leaves every register 0, IDLE, no control state and `irq` low; memory and sinks keep
what they held; the cache is as it was, or as an outstanding request left it. -/
def Obligations.ResetRestoresTheBlock : Prop :=
  ∀ (s : State) (rest : List Event), s.schedule = .reset :: rest →
    ∃ t, step s = .next t ∧ (∀ r, t.regs.read r = 0) ∧ t.regs = State.reset.regs ∧ t.phase = .idle ∧ t.passes = [] ∧
      t.stack = [] ∧ t.queue = [] ∧ t.pending = none ∧ t.irq = false ∧ t.sinks = s.sinks ∧
      (∀ a, Memory.read t.mem a = Memory.read s.mem a) ∧ t.build = s.build ∧ t.schedule = rest ∧
      (t.cache = s.cache ∨ ∃ pd, s.pending = some pd ∧ t.cache = (platformCache.lookup s.cache pd.key).1)

/-- R306, R322: with no input, an idle block takes no step; the machine right after reset stays as it is. -/
def Obligations.IdleTakesNoStep : Prop :=
  (∀ s : State, s.schedule = [] → s.phase = .idle → step s = .next s) ∧ step State.reset = .next State.reset

/-! ### Node symbols -/

/-- R200: SKIP completes on every node that is not lazy and equal to its reference under the mask. -/
def Obligations.SkipReusesTheReference : Prop :=
  ∀ (s : State) (p : Pass) (fr : Frame) (rest : List Frame), NodeReady s p fr rest →
    s.cfg.refEn = true → s.cfg.lazy ≤ fr.d → AgreeOn s.P s.Q fr (maskOf p) →
    ∃ t, exec .skip s = .next t ∧ t.queue = [.cmd false] ∧ t.stack = rest ∧ NodeFrame s t

/-- R201: FLAT completes on every uniform node that is no SKIP, with the top-left pixel as its payload. -/
def Obligations.FlatEmitsTheTopLeftPixel : Prop :=
  ∀ (s : State) (p : Pass) (fr : Frame) (rest : List Frame), NodeReady s p fr rest →
    SelectsFlat s.cfg s.P s.Q fr p →
    ∃ t, exec .flat s = .next t ∧ t.stack = rest ∧ NodeFrame s t ∧
      t.queue = (if s.cfg.refEn then [Token.cmd true] else []) ++ .cmd true ::
        (pixBytes s.cfg.bgra (s.P fr.x1 fr.y1) p).map Token.pix

/-- R202, R203, R204, R176, R177: below the ceiling, a node that is not flat splits on the axes that exceed M, and its children
are visited in the rule's order before the frames below. -/
def Obligations.SplitsPushTheirChildren : Prop :=
  ∀ (s : State) (p : Pass) (x1 y1 x2 y2 d : Nat) (rest : List Frame), NodeReady s p ⟨x1, y1, x2, y2, d⟩ rest →
    SelectsNonFlat s.cfg s.P s.Q ⟨x1, y1, x2, y2, d⟩ p → d ≠ s.cfg.maxdepth →
    (s.cfg.M < x2 - x1 → s.cfg.M < y2 - y1 → ∃ t, exec .quad s = .next t ∧ NodeFrame s t ∧
      t.queue = (if s.cfg.refEn then [Token.cmd true] else []) ++ [.cmd false] ∧
      t.stack = ⟨x1, y1, (x1 + x2) / 2, (y1 + y2) / 2, d + 1⟩ :: ⟨x1, (y1 + y2) / 2, (x1 + x2) / 2, y2, d + 1⟩ ::
        ⟨(x1 + x2) / 2, y1, x2, (y1 + y2) / 2, d + 1⟩ :: ⟨(x1 + x2) / 2, (y1 + y2) / 2, x2, y2, d + 1⟩ :: rest) ∧
    (s.cfg.M < x2 - x1 → y2 - y1 ≤ s.cfg.M → ∃ t, exec .splitx s = .next t ∧ NodeFrame s t ∧
      t.queue = (if s.cfg.refEn then [Token.cmd true] else []) ++ [.cmd false] ∧
      t.stack = ⟨x1, y1, (x1 + x2) / 2, y2, d + 1⟩ :: ⟨(x1 + x2) / 2, y1, x2, y2, d + 1⟩ :: rest) ∧
    (x2 - x1 ≤ s.cfg.M → s.cfg.M < y2 - y1 → ∃ t, exec .splity s = .next t ∧ NodeFrame s t ∧
      t.queue = (if s.cfg.refEn then [Token.cmd true] else []) ++ [.cmd false] ∧
      t.stack = ⟨x1, y1, x2, (y1 + y2) / 2, d + 1⟩ :: ⟨x1, (y1 + y2) / 2, x2, y2, d + 1⟩ :: rest)

/-- R205, R206: a node that is not flat is written raw at the depth ceiling whatever its size and the cache, and below it when it
cannot split and there is no cache. -/
def Obligations.RawLeavesEmitTheRegion : Prop :=
  ∀ (s : State) (p : Pass) (fr : Frame) (rest : List Frame), NodeReady s p fr rest → SelectsNonFlat s.cfg s.P s.Q fr p →
    (fr.d = s.cfg.maxdepth → ∃ t, exec .deep s = .next t ∧ t.stack = rest ∧ NodeFrame s t ∧
      t.queue = (if s.cfg.refEn then [Token.cmd true] else []) ++ .cmd false :: (raw s.cfg.bgra s.P fr p).map Token.pix) ∧
    (fr.d ≠ s.cfg.maxdepth → fr.x2 - fr.x1 ≤ s.cfg.M → fr.y2 - fr.y1 ≤ s.cfg.M → s.cfg.cacheEn = false →
      ∃ t, exec .leaf s = .next t ∧ t.stack = rest ∧ NodeFrame s t ∧
      t.queue = (if s.cfg.refEn then [Token.cmd true] else []) ++ .cmd false :: (raw s.cfg.bgra s.P fr p).map Token.pix)

/-- R180, R230, R241, R158: a node that is not flat, below the ceiling, that cannot split, with a cache, sends exactly one request,
with its key, and waits; it queues nothing yet. -/
def Obligations.MinimumLeafAsksTheCache : Prop :=
  ∀ (s : State) (p : Pass) (fr : Frame) (rest : List Frame), NodeReady s p fr rest → SelectsNonFlat s.cfg s.P s.Q fr p →
    s.schedule = [] → fr.d ≠ s.cfg.maxdepth → fr.x2 - fr.x1 ≤ s.cfg.M → fr.y2 - fr.y1 ≤ s.cfg.M → s.cfg.cacheEn = true →
    ∃ t, step s = .next t ∧ t.phase = .cacheWait ∧ t.queue = [] ∧ t.stack = rest ∧ t.regs = s.regs ∧ t.cache = s.cache ∧
      t.sinks = s.sinks ∧ (∀ a, Memory.read t.mem a = Memory.read s.mem a) ∧
      ∃ pd, t.pending = some pd ∧ pd.frame = fr ∧ pd.fmt = p ∧
        pd.head = (if s.cfg.refEn then [Token.cmd true] else []) ++ [.cmd false] ∧
        pd.key = { fmt := p, w := fr.x2 - fr.x1, h := fr.y2 - fr.y1, bytes := raw s.cfg.bgra s.P fr p }

/-- R207, R209, R232: HIT completes when the cache answers with a slot whose number fits INDEXBITS. -/
def Obligations.HitEmitsTheIndex : Prop :=
  ∀ (s : State) (pd : Pending) (c : CacheState) (i : Nat), s.phase = .cacheWait → s.pending = some pd →
    platformCache.lookup s.cache pd.key = (c, .hit i) → i < 2 ^ s.cfg.indexbits →
    exec .hit s = .next { s with
      queue := pd.head ++ [.cmd false, .idx i], phase := .active, pending := none, cache := c } ∧
    platformCache.holds s.cache i = some pd.key ∧ c = platformCache.touch s.cache i

/-- R208, R209, R234: MISS completes when the cache answers INSERTED; its payload is the key's bytes (log entry 20). -/
def Obligations.MissEmitsThePayload : Prop :=
  ∀ (s : State) (pd : Pending) (c : CacheState), s.phase = .cacheWait → s.pending = some pd →
    platformCache.lookup s.cache pd.key = (c, .inserted) →
    exec .miss s = .next { s with
      queue := pd.head ++ .cmd true :: pd.key.bytes.map Token.pix, phase := .active, pending := none, cache := c } ∧
    (∀ i, platformCache.holds s.cache i ≠ some pd.key) ∧ c = platformCache.add s.cache pd.key

/-- R292, R209, R236, R283: an ERROR answer, or a HIT whose index does not fit INDEXBITS, enters fault 9 and queues nothing; the
cache is as it left itself (R242). -/
def Obligations.BadCacheAnswerFaults : Prop :=
  ∀ (s : State) (pd : Pending) (c : CacheState) (a : Resp) (i : Instr), i = .hit ∨ i = .miss →
    s.phase = .cacheWait → s.pending = some pd → platformCache.lookup s.cache pd.key = (c, a) →
    (a = .error ∨ ∃ n, a = .hit n ∧ 2 ^ s.cfg.indexbits ≤ n) →
    ∃ t, exec i s = .next t ∧ FaultEntered s t 9 0 ∧ t.cache = c

/-- R291, R181, R283, R294: a node whose read set meets MEM_ERR enters fault 8 with the first erroring pixel's address, whatever
symbol it would have been, and sends no request. -/
def Obligations.ReadErrorFaults : Prop :=
  ∀ (s : State) (p : Pass) (fr : Frame) (rest : List Frame) (before after : List Nat) (a : Nat) (i : Instr),
    i ∈ [Instr.skip, .flat, .quad, .splitx, .splity, .deep, .leaf] → s.phase = .active → s.queue = [] →
    s.passes.head? = some p → s.stack = fr :: rest → s.readSet fr = before ++ a :: after →
    (∀ b ∈ before, Build.errs s.build b = false) → Build.errs s.build a = true →
    (∃ t, exec i s = .next t ∧ FaultEntered s t 8 (BitVec.ofNat 32 a) ∧ t.cache = s.cache) ∧
    (s.schedule = [] → ∃ t, step s = .next t ∧ FaultEntered s t 8 (BitVec.ofNat 32 a) ∧ t.cache = s.cache)

/-- R155, R107: the payload table. -/
def Obligations.PayloadTable : Prop :=
  ∀ q : Pixel,
    pixBytes false q .full = [q.x, q.y, q.z] ∧ pixBytes true q .full = [q.z, q.y, q.x] ∧
    pixBytes false q .luma = [q.y] ∧ pixBytes true q .luma = [q.y] ∧
    pixBytes false q .chroma = [q.x, q.z] ∧ pixBytes true q .chroma = [q.z, q.x]

/-- R156, R109, R14: a raw payload holds the pixels of its region in row-major order, `nb(p)` bytes each. -/
def Obligations.RawPayloadIsRowMajor : Prop :=
  ∀ (bgra : Bool) (P : Image) (fr : Frame) (p : Pass),
    (raw bgra P fr p).length = (fr.x2 - fr.x1) * (fr.y2 - fr.y1) * nb p ∧
    ∀ x y, fr.x1 ≤ x → x < fr.x2 → fr.y1 ≤ y → y < fr.y2 →
      ((raw bgra P fr p).drop (((y - fr.y1) * (fr.x2 - fr.x1) + (x - fr.x1)) * nb p)).take (nb p) = pixBytes bgra (P x y) p

/-- R71, R72, R73, R290: under a checked configuration whose memory was not written during the run, P and Q read the four bytes
at `B + 4(yW + x)`, x lowest, for every pixel of the image. -/
def Obligations.PixelsReadTheirFourBytes : Prop :=
  ∀ (s : State) (x y : Nat), configCheck s.build s.cfg = none → s.unstable = [] → x < s.cfg.W → y < s.cfg.H →
    s.P x y = fourBytes s.mem (s.cfg.imgBase + 4 * (y * s.cfg.W + x)) ∧
    (s.cfg.refEn = true → s.Q x y = fourBytes s.mem (s.cfg.refBase + 4 * (y * s.cfg.W + x)))

/-- R79, R80, R325, R72 (the free value is the model's form, log entry 11): a byte the host writes is stored, and no other byte of
memory changes. Written into an image region during a run, it makes every read of its pixel a free pixel, and no other read.
Outside the regions, or with no run, it reads back at once. In any state with BUSY = 0, a START makes every pixel read as memory
holds it, the bytes written during a run included. -/
def Obligations.HostWritesAreReadBack : Prop :=
  (∀ (s : State) (a : Nat) (v : Byte) (rest : List Event), Memory.wf s.mem → a < 2 ^ s.build.addrW →
    s.schedule = .memWrite a v :: rest →
    ∃ t, step s = .next t ∧ t = { s with schedule := rest, mem := t.mem, unstable := t.unstable } ∧ Memory.wf t.mem ∧
      Memory.read t.mem a = v ∧ (∀ b, b ≠ a → Memory.read t.mem b = Memory.read s.mem b) ∧
      (s.regs.busy = true → s.inRegions a = true → ∀ q, q ≤ a → a ≤ q + 3 → t.pixelAt q = Config.freePixel t.freeCtr q) ∧
      (s.regs.busy = false ∨ s.inRegions a = false → t.unstable = s.unstable ∧
        ∀ q, (∀ b ∈ s.unstable, b < q ∨ q + 3 < b) → t.pixelAt q = fourBytes t.mem q) ∧
      (∀ q, a < q ∨ q + 3 < a → t.pixelAt q = s.pixelAt q)) ∧
  (∀ (u w : State) (r : BitVec 30) (e : Bool), u.regs.busy = false → exec (.start r e) u = .next w →
    ∀ q, w.pixelAt q = fourBytes u.mem q)

/-! ### Transfers, passes, completion -/

/-- R182, R103, R101, R188, R230: a transfer moves the head token to its port's sink and counts it there, modulo 2^32; while the
sink does not accept, nothing moves, and neither does anything while the cache does not answer an outstanding request. -/
def Obligations.TransferMovesTheHeadToken : Prop :=
  (∀ (s : State) (tok : Token) (q : List Token), s.schedule = [] → s.phase = .active → s.queue = tok :: q →
    (s.sinks.accepts tok.port = false → step s = .next s) ∧
    (s.sinks.accepts tok.port = true → ∃ t, step s = .next t ∧
      t = { s with queue := q, regs := t.regs, sinks := t.sinks } ∧
      t.regs = { s.regs with
        cmdBits := s.regs.cmdBits + (if tok.port = .cmd then 1 else 0)
        idxCount := s.regs.idxCount + (if tok.port = .idx then 1 else 0)
        pixBytes := s.regs.pixBytes + (if tok.port = .pix then 1 else 0) } ∧
      t.sinks = { s.sinks with
        cmd := s.sinks.cmd ++ (streamsOf s.cfg.indexbits [tok]).cmd
        idx := s.sinks.idx ++ (streamsOf s.cfg.indexbits [tok]).idx
        pix := s.sinks.pix ++ (streamsOf s.cfg.indexbits [tok]).pix })) ∧
  (∀ s : State, s.schedule = [] → s.phase = .cacheWait → s.cacheReady = false → step s = .next s)

/-- R183, R184, R172: the pass-end step begins the next pass at its root, or completes the run; nothing else changes. -/
def Obligations.PassEndBeginsTheNextPassOrCompletes : Prop :=
  ∀ s : State, s.schedule = [] → s.phase = .active → s.queue = [] → s.stack = [] →
    (∀ p q ps, s.passes = p :: q :: ps →
      step s = .next { s with passes := q :: ps, stack := [⟨0, 0, s.cfg.W, s.cfg.H, 0⟩] }) ∧
    (∀ p, s.passes = [p] →
      step s = .next { s with passes := [], phase := .idle, regs := { s.regs with busy := false, done := true } })

/-! ### The invariant and the whole machine -/

/-- R47, R322: the machine right after reset meets the invariant. -/
def Obligations.ResetMeetsTheInvariant : Prop := State.reset.Inv

/-- R22, R34, R35, R38, R39, R40, R41, R42, R178, R179: every step keeps the invariant: field widths, flags, phase, control state,
the checked configuration, the frames and the bound on the stack. -/
def Obligations.EveryStepKeepsTheInvariant : Prop := ∀ s t : State, s.Inv → step s = .next t → t.Inv

/-- R42: the stack never holds more than `3*Dmax + 1` frames, and START let no deeper run begin than the stack holds. -/
def Obligations.StackIsBounded : Prop :=
  ∀ s : State, s.Inv → s.regs.busy = true →
    s.stack.length ≤ 3 * dMax s.cfg + 1 ∧ dMax s.cfg ≤ s.build.maxHwDepth ∧ ∀ fr ∈ s.stack, fr.d ≤ dMax s.cfg

/-- From a state that meets the invariant a step is never refused, and it stops on one input alone: a host write outside the
address space (the model's own stop, log entry 13). -/
def Obligations.NothingStopsButAWriteOutOfSpace : Prop :=
  (∀ s : State, s.Inv → (∀ e ∈ s.schedule.head?, ¬e.OutOfSpace s.build) → ∃ t, step s = .next t) ∧
  (∀ (s : State) (r : Fault), step s = .fault r →
    ∃ a v rest, s.schedule = .memWrite a v :: rest ∧ 2 ^ s.build.addrW ≤ a ∧ r = .noSuchAddress a)

/-- R76, R78: no instruction and no step of the block writes pixel memory; only the host's own write does. -/
def Obligations.TheBlockNeverWritesMemory : Prop :=
  (∀ (i : Instr) (s t : State), exec i s = .next t → ∀ a, Memory.read t.mem a = Memory.read s.mem a) ∧
  (∀ s t : State, step s = .next t → (∀ a v rest, s.schedule ≠ .memWrite a v :: rest) → t.mem = s.mem)

/-- R83, R38: while BUSY stays 1 across a step, `cfg` and the configuration registers do not change. -/
def Obligations.ConfigurationIsFixedDuringARun : Prop :=
  ∀ s t : State, step s = .next t → s.regs.busy = true → t.regs.busy = true →
    t.cfg = s.cfg ∧ ∀ r, r.isConfig = true → t.regs.read r = s.regs.read r

/-- R103, R46, R35: unless its event is a host access or reset, a step changes a counter only by transferring a token, and KEYFRAME
and IRQ_EN never. A sink gains no token otherwise, and loses those it holds only when the host discards them. -/
def Obligations.OnlyTransfersCount : Prop :=
  ∀ s t : State, (∀ e ∈ s.schedule.head?, e ≠ .reset ∧ ∀ w, e ≠ .access w) → step s = .next t →
    t.regs.keyframe = s.regs.keyframe ∧ t.regs.irqEn = s.regs.irqEn ∧
    ((t.regs.cmdBits = s.regs.cmdBits ∧ t.regs.idxCount = s.regs.idxCount ∧ t.regs.pixBytes = s.regs.pixBytes ∧
        ((t.sinks.cmd = s.sinks.cmd ∧ t.sinks.idx = s.sinks.idx ∧ t.sinks.pix = s.sinks.pix) ∨
          s.schedule.head? = some .drainSinks)) ∨
      ∃ tok q, s.queue = tok :: q ∧ t.queue = q ∧ s.phase = .active ∧ s.sinks.accepts tok.port = true ∧
        t.regs = s.regs.count tok.port)

/-- R81, R184: DONE is set by the pass-end step of the last pass alone, with nothing left to transfer or visit. -/
def Obligations.DoneComesAfterTheLastTransfer : Prop :=
  ∀ s t : State, step s = .next t → s.regs.done = false → t.regs.done = true →
    s.phase = .active ∧ s.queue = [] ∧ s.stack = [] ∧ s.passes.length ≤ 1 ∧
      t.regs.cmdBits = s.regs.cmdBits ∧ t.regs.idxCount = s.regs.idxCount ∧ t.regs.pixBytes = s.regs.pixBytes

/-- R34, R297, R298, R133: while a run goes on `irq` is low and ACK changes no register; DONE and FAULT are never both 1. -/
def Obligations.RunningMeansNoOutcome : Prop :=
  ∀ s : State, s.Inv → ¬(s.regs.done = true ∧ s.regs.fault = true) ∧
    (s.regs.busy = true → s.irq = false ∧ ∀ v, exec (.ack v) s = .next { s with host := { s.host with err := false } })

/-- R241, R84, R240: the cache is touched by no instruction but HIT and MISS, and is asked only for a node that may not split,
below the ceiling, with CACHE_EN = 1. -/
def Obligations.CacheIsAskedOnlyForCachedNodes : Prop :=
  (∀ (i : Instr) (s t : State), exec i s = .next t → i ≠ .hit → i ≠ .miss → t.cache = s.cache) ∧
  (∀ (s t : State), step s = .next t → s.phase = .active → t.phase = .cacheWait →
    ∃ fr rest, s.stack = fr :: rest ∧ s.cfg.cacheEn = true ∧ fr.d ≠ s.cfg.maxdepth ∧
      fr.x2 - fr.x1 ≤ s.cfg.M ∧ fr.y2 - fr.y1 ≤ s.cfg.M ∧ t.cache = s.cache)

/-- R189, R290, R74: every address a run reads is 4-byte aligned, inside the address space, and inside the image or, with a
reference, the reference. -/
def Obligations.ReadsStayInsideTheImages : Prop :=
  ∀ (s : State) (fr : Frame) (a : Nat), s.Inv → s.regs.busy = true → fr ∈ s.stack → a ∈ s.readSet fr →
    a % 4 = 0 ∧ a + 3 < 2 ^ s.build.addrW ∧
      ((s.cfg.imgBase ≤ a ∧ a + 3 < s.cfg.imgBase + 4 * s.cfg.W * s.cfg.H) ∨
        (s.cfg.refEn = true ∧ s.cfg.refBase ≤ a ∧ a + 3 < s.cfg.refBase + 4 * s.cfg.W * s.cfg.H))

/-- R231 to R234 (the attached cache's form is the model's choice, log entry 5): the attached cache meets the contract, whatever
its free functions do. -/
def Obligations.AttachedCacheMeetsItsContract : Prop := platformCache.Contract

/-! ### Geometry -/

/-- R177, R179: the children of a split are not empty, and every pixel of the parent lies in exactly one of them; on each axis
the first half is the floor and the second the ceiling. -/
def Obligations.ChildrenPartitionTheirParent : Prop :=
  ∀ fr : Frame, fr.x1 < fr.x2 → fr.y1 < fr.y2 →
    (2 ≤ fr.x2 - fr.x1 → 2 ≤ fr.y2 - fr.y1 → Partition fr (quadChildren fr)) ∧
    (2 ≤ fr.x2 - fr.x1 → Partition fr (splitxChildren fr)) ∧
    (2 ≤ fr.y2 - fr.y1 → Partition fr (splityChildren fr)) ∧
    fr.xm - fr.x1 = (fr.x2 - fr.x1) / 2 ∧ fr.x2 - fr.xm = (fr.x2 - fr.x1 + 1) / 2 ∧
    fr.ym - fr.y1 = (fr.y2 - fr.y1) / 2 ∧ fr.y2 - fr.ym = (fr.y2 - fr.y1 + 1) / 2

/-- R178: every child of a split node has strictly fewer halvings left than its parent. -/
def Obligations.ChildrenAreShallower : Prop :=
  ∀ (M : Nat) (fr c : Frame), 1 ≤ M → fr.x1 < fr.x2 → fr.y1 < fr.y2 →
    (M < fr.w ∧ M < fr.h ∧ c ∈ quadChildren fr) ∨ (M < fr.w ∧ fr.h ≤ M ∧ c ∈ splitxChildren fr) ∨
      (fr.w ≤ M ∧ M < fr.h ∧ c ∈ splityChildren fr) →
    max (kDepth M c.w) (kDepth M c.h) < max (kDepth M fr.w) (kDepth M fr.h)

/-! ### The run as a whole -/

/-- R185, R184, R293: from the state an accepted START leaves, with nothing holding the block up and no erring address, the stack
machine transfers on each port exactly the sequence the recursive definition gives, counts it, and completes with the cache
state it gives. -/
def Obligations.StackMachineTransfersEncodeRun : Prop :=
  ∀ (s : State) (ts : List Token) (c1 : CacheState), s.Free → s.phase = .active → s.queue = [] → s.pending = none →
    s.passes = passList s.cfg.colordiff → s.stack = [⟨0, 0, s.cfg.W, s.cfg.H, 0⟩] → s.unstable = [] → s.build.memErr = [] →
    encodeRun platformCache s.cfg s.P s.Q s.cache = some (ts, c1) →
    ∃ (n : Nat) (t : State), Host.Core.run core n s = .next t ∧ t.phase = .idle ∧ t.regs.done = true ∧ t.regs.busy = false ∧
      t.cache = c1 ∧ t.mem = s.mem ∧
      t.sinks.cmd = s.sinks.cmd ++ (streamsOf s.cfg.indexbits ts).cmd ∧
      t.sinks.idx = s.sinks.idx ++ (streamsOf s.cfg.indexbits ts).idx ∧
      t.sinks.pix = s.sinks.pix ++ (streamsOf s.cfg.indexbits ts).pix ∧
      t.regs.cmdBits = s.regs.cmdBits + BitVec.ofNat 32 (streamsOf s.cfg.indexbits ts).cmd.length ∧
      t.regs.idxCount = s.regs.idxCount + BitVec.ofNat 32 (streamsOf s.cfg.indexbits ts).idx.length ∧
      t.regs.pixBytes = s.regs.pixBytes + BitVec.ofNat 32 (streamsOf s.cfg.indexbits ts).pix.length

/-- R188, R179: from any state that meets the invariant, with nothing holding the block up, a run ends. -/
def Obligations.EveryRunEnds : Prop :=
  ∀ s : State, s.Inv → s.Free →
    ∃ (n : Nat) (t : State), Host.Core.run core n s = .next t ∧ t.phase = .idle ∧
      (s.regs.busy = true → t.regs.done = true ∨ t.regs.fault = true)

/-- R258, R259, R264, R239: with any cache that meets the contract, decoding a run's streams gives back every x, y and z byte of
the image, consumes every token, and leaves the decoder's cache in the encoder's final state. -/
def Obligations.DecodeOfEncodeReturnsTheImage : Prop :=
  ∀ (C : Type) (M : CacheModel C) (b : Build) (cfg : RunCfg) (P Q : Image) (c0 c1 : C) (ts : List Token),
    M.Contract → configCheck b cfg = none → encodeRun M cfg P Q c0 = some (ts, c1) →
    ∃ st : DecState C,
      decode M cfg.toDec (streamsOf cfg.indexbits ts) (if cfg.refEn then some Q else none) c0 = .ok st ∧
      st.cmd = [] ∧ st.idx = [] ∧ st.pix = [] ∧ st.cache = c1 ∧
      ∀ x y c, x < cfg.W → y < cfg.H → c ≠ Channel.a → st.out x y c = some ((P x y).get c)

/-- R179, R185: without a cache every run completes, and leaves the cache alone: the recursion reaches its leaves before its
bound (log entry 26). -/
def Obligations.EncodeWithoutCacheCompletes : Prop :=
  ∀ (C : Type) (M : CacheModel C) (cfg : RunCfg) (P Q : Image) (c0 : C),
    cfg.cacheEn = false → ∃ ts, encodeRun M cfg P Q c0 = some (ts, c0)

/-- R159: two images, and two references, that differ in `a` alone give the same run. -/
def Obligations.AlphaNeverMatters : Prop :=
  ∀ (C : Type) (M : CacheModel C) (cfg : RunCfg) (P P' Q Q' : Image) (c0 : C),
    (∀ x y c, c ≠ Channel.a → (P x y).get c = (P' x y).get c) → (∀ x y c, c ≠ Channel.a → (Q x y).get c = (Q' x y).get c) →
    encodeRun M cfg P Q c0 = encodeRun M cfg P' Q' c0

/-- R7, R28, R171: COLORDIFF 1 encodes as 0. -/
def Obligations.ColordiffOneEncodesAsZero : Prop :=
  ∀ (C : Type) (M : CacheModel C) (cfg : RunCfg) (P Q : Image) (c0 : C),
    encodeRun M { cfg with colordiff := 1 } P Q c0 = encodeRun M { cfg with colordiff := 0 } P Q c0

/-- R261: what a uniform image encodes to, in each of the rule's cases, independent of its size. -/
def Obligations.UniformImageCompacts : Prop :=
  ∀ (C : Type) (M : CacheModel C) (b : Build) (cfg : RunCfg) (P Q : Image) (c0 : C),
    configCheck b cfg = none → cfg.lazy = 0 →
    AgreeOn P (fun _ _ => P 0 0) (rootFrame cfg.W cfg.H) [.x, .y, .z] →
    ((cfg.colordiff ≠ 2 → cfg.refEn = false → ∃ ts, encodeRun M cfg P Q c0 = some (ts, c0) ∧
      streamsOf cfg.indexbits ts = ⟨[true], [], pixBytes cfg.bgra (P 0 0) .full⟩) ∧
    (cfg.colordiff ≠ 2 → cfg.refEn = true → ¬AgreeOn P Q (rootFrame cfg.W cfg.H) [.x, .y, .z] →
      ∃ ts, encodeRun M cfg P Q c0 = some (ts, c0) ∧
      streamsOf cfg.indexbits ts = ⟨[true, true], [], pixBytes cfg.bgra (P 0 0) .full⟩) ∧
    (cfg.colordiff ≠ 2 → cfg.refEn = true → AgreeOn P Q (rootFrame cfg.W cfg.H) [.x, .y, .z] →
      ∃ ts, encodeRun M cfg P Q c0 = some (ts, c0) ∧ streamsOf cfg.indexbits ts = ⟨[false], [], []⟩) ∧
    (cfg.colordiff = 2 → cfg.refEn = false → ∃ ts, encodeRun M cfg P Q c0 = some (ts, c0) ∧
      streamsOf cfg.indexbits ts = ⟨[true, true], [], pixBytes cfg.bgra (P 0 0) .luma ++ pixBytes cfg.bgra (P 0 0) .chroma⟩))

/-- R251, R255 (what a misread gives is the model's form, log entry 31): the decoder's reads take the next tokens and move forward
only. ReadIdx uses the decoder's width: a token of that width gives its value, and whatever is there, the read fails or gives a
value that fits the width from a place no earlier. Past the end a read fails. What a decode leaves is the end of each sequence. -/
def Obligations.DecoderReadsMoveForwardOnly : Prop :=
  ∀ (C : Type) (M : CacheModel C),
    (∀ (st : DecState C) (n : Nat) (f : List Byte → DecState C → DecResult C),
      (n ≤ st.pix.length → st.readBytes n f = f (st.pix.take n) { st with pix := st.pix.drop n }) ∧
      (st.pix.length < n → st.readBytes n f = .fail st.cache)) ∧
    (∀ (st : DecState C) (width : Nat) (f : Nat → DecState C → DecResult C),
      (∀ i rest, st.idx = ⟨i, width⟩ :: rest → i < 2 ^ width → st.readIdx width f = f i { st with idx := rest }) ∧
      (st.idx = [] → st.readIdx width f = .fail st.cache) ∧
      (st.readIdx width f = .fail st.cache ∨
        ∃ i n, i < 2 ^ width ∧ st.readIdx width f = f i { st with idx := st.idx.drop n })) ∧
    (∀ (d : DecCfg) (q : Streams) (ref : Option Image) (c0 : C) (st : DecState C), decode M d q ref c0 = .ok st →
      st.cmd <:+ q.cmd ∧ st.idx <:+ q.idx ∧ st.pix <:+ q.pix)
end

