-- ==== Sys2Proof/Laws/Decoder.lean ====
section
/-! SUPPORT. What the reads of the reference decoder can do (R251, R255), and the streams of a token sequence. -/

namespace Sys2Proof.Machine

@[simp] theorem streamsOf_nil (w : Nat) : streamsOf w [] = ⟨[], [], []⟩ := rfl
@[simp] theorem streamsOf_cmd (w : Nat) (b : Bool) (ts : List Token) :
    streamsOf w (.cmd b :: ts) = { streamsOf w ts with cmd := b :: (streamsOf w ts).cmd } := rfl
@[simp] theorem streamsOf_idx (w i : Nat) (ts : List Token) :
    streamsOf w (.idx i :: ts) = { streamsOf w ts with idx := ⟨i, w⟩ :: (streamsOf w ts).idx } := rfl
@[simp] theorem streamsOf_pix (w : Nat) (v : Byte) (ts : List Token) :
    streamsOf w (.pix v :: ts) = { streamsOf w ts with pix := v :: (streamsOf w ts).pix } := rfl

/-- The streams of two token sequences, one after the other. -/
theorem streamsOf_append (w : Nat) (ts us : List Token) :
    streamsOf w (ts ++ us) = ⟨(streamsOf w ts).cmd ++ (streamsOf w us).cmd, (streamsOf w ts).idx ++ (streamsOf w us).idx,
      (streamsOf w ts).pix ++ (streamsOf w us).pix⟩ := by
  simp [streamsOf, List.filterMap_append]

/-- Index tokens of a run are as wide as its INDEXBITS. -/
theorem streamsOf_idx_width {w : Nat} {ts : List Token} {b : IdxBeat} (h : b ∈ (streamsOf w ts).idx) :
    b.width = w ∧ Token.idx b.data ∈ ts := by
  simp only [streamsOf, List.mem_filterMap] at h
  obtain ⟨t, ht, hb⟩ := h
  cases t <;> simp_all
  subst hb
  exact ⟨rfl, ht⟩

/-- Everything `ReadBytes` can do. -/
theorem readBytes_cases {C : Type} (st : DecState C) (n : Nat) (f : List Byte → DecState C → DecResult C) :
    (n ≤ st.pix.length ∧ st.readBytes n f = f (st.pix.take n) { st with pix := st.pix.drop n }) ∨
      (st.pix.length < n ∧ st.readBytes n f = .fail st.cache) := by
  by_cases h : n ≤ st.pix.length
  · exact .inl ⟨h, by simp [DecState.readBytes, h]⟩
  · exact .inr ⟨by omega, by simp [DecState.readBytes, h]⟩

/-- A token of the decoder's width gives its value (R251, R108). -/
theorem readIdx_of_width {C : Type} {st : DecState C} {w i : Nat} {rest : List IdxBeat} (f : Nat → DecState C → DecResult C)
    (h : st.idx = ⟨i, w⟩ :: rest) (hi : i < 2 ^ w) : st.readIdx w f = f i { st with idx := rest } := by
  simp [DecState.readIdx, h, hi]

/-- Past the end `ReadIdx` fails (R255). -/
theorem readIdx_nil {C : Type} {st : DecState C} (w : Nat) (f : Nat → DecState C → DecResult C) (h : st.idx = []) :
    st.readIdx w f = .fail st.cache := by
  simp [DecState.readIdx, h]

/-- Everything `ReadIdx` can do, whatever the tokens' width: fail, or give a value that fits and move forward. -/
theorem readIdx_cases {C : Type} (st : DecState C) (w : Nat) (f : Nat → DecState C → DecResult C) :
    st.readIdx w f = .fail st.cache ∨ ∃ i n, i < 2 ^ w ∧ st.readIdx w f = f i { st with idx := st.idx.drop n } := by
  unfold DecState.readIdx
  rcases hs : st.idx with _ | ⟨b, rest⟩
  · exact .inl rfl
  · by_cases hb : b.width = w ∧ b.data < 2 ^ w
    · exact .inr ⟨b.data, 1, hb.2, by simp [hb]⟩
    · simp only [if_neg hb]
      rcases Config.misreadIdx w (b :: rest) with _ | ⟨v, n⟩
      · exact .inl rfl
      · exact .inr ⟨v % 2 ^ w, n, Nat.mod_lt _ (by positivity), rfl⟩

end Sys2Proof.Machine
end

