-- ==== Sys2Proof/Laws/Geometry.lean ====
section
/-! SUPPORT. Payload lengths and the pixels of a region. -/

namespace Sys2Proof.Machine

@[simp] theorem payloadOrder_length (bgra : Bool) (p : Pass) : (payloadOrder bgra p).length = nb p := by
  cases p <;> cases bgra <;> rfl

@[simp] theorem pixBytes_length (bgra : Bool) (q : Pixel) (p : Pass) : (pixBytes bgra q p).length = nb p := by
  simp [pixBytes]

/-- A payload's channels are the mask's (R155, R150). -/
theorem mem_payloadOrder (bgra : Bool) (p : Pass) (c : Channel) : c ∈ payloadOrder bgra p ↔ c ∈ maskOf p := by
  cases p <;> cases bgra <;> cases c <;> decide

@[simp] theorem rowMajor_length (fr : Frame) : (rowMajor fr).length = fr.w * fr.h := by
  simp [rowMajor, List.length_flatMap, Nat.mul_comm]

theorem mem_rowMajor {fr : Frame} {x y : Nat} :
    (x, y) ∈ rowMajor fr ↔ (fr.x1 ≤ x ∧ x < fr.x2) ∧ (fr.y1 ≤ y ∧ y < fr.y2) := by
  simp only [rowMajor, List.mem_flatMap, List.mem_range, List.mem_map, Prod.mk.injEq, Frame.w, Frame.h]
  constructor
  · rintro ⟨j, hj, i, hi, rfl, rfl⟩
    omega
  · rintro ⟨⟨h1, h2⟩, h3, h4⟩
    exact ⟨y - fr.y1, by omega, x - fr.x1, by omega, by omega, by omega⟩

/-- The length of a raw payload (R109, R156). -/
@[simp] theorem raw_length (bgra : Bool) (P : Image) (fr : Frame) (p : Pass) :
    (raw bgra P fr p).length = fr.w * fr.h * nb p := by
  simp [raw, List.length_flatMap]

end Sys2Proof.Machine
end

