-- ==== Sys2Proof/Laws/State.lean ====
section
/-! SUPPORT. The small lemmas of the record updates: what each leaves in each field, true by rfl. -/

namespace Sys2Proof.Machine

/-! ### State.setIrqEn -/

@[simp] theorem State.setIrqEn_build (s : State) (b : Bool) : (s.setIrqEn b).build = s.build := rfl
@[simp] theorem State.setIrqEn_regs (s : State) (b : Bool) : (s.setIrqEn b).regs = { s.regs with irqEn := b } := rfl
@[simp] theorem State.setIrqEn_cfg (s : State) (b : Bool) : (s.setIrqEn b).cfg = s.cfg := rfl
@[simp] theorem State.setIrqEn_phase (s : State) (b : Bool) : (s.setIrqEn b).phase = s.phase := rfl
@[simp] theorem State.setIrqEn_passes (s : State) (b : Bool) : (s.setIrqEn b).passes = s.passes := rfl
@[simp] theorem State.setIrqEn_stack (s : State) (b : Bool) : (s.setIrqEn b).stack = s.stack := rfl
@[simp] theorem State.setIrqEn_queue (s : State) (b : Bool) : (s.setIrqEn b).queue = s.queue := rfl
@[simp] theorem State.setIrqEn_pending (s : State) (b : Bool) : (s.setIrqEn b).pending = s.pending := rfl
@[simp] theorem State.setIrqEn_work (s : State) (b : Bool) : (s.setIrqEn b).work = s.work := rfl
@[simp] theorem State.setIrqEn_mem (s : State) (b : Bool) : (s.setIrqEn b).mem = s.mem := rfl
@[simp] theorem State.setIrqEn_cache (s : State) (b : Bool) : (s.setIrqEn b).cache = s.cache := rfl
@[simp] theorem State.setIrqEn_cacheReady (s : State) (b : Bool) : (s.setIrqEn b).cacheReady = s.cacheReady := rfl
@[simp] theorem State.setIrqEn_sinks (s : State) (b : Bool) : (s.setIrqEn b).sinks = s.sinks := rfl
@[simp] theorem State.setIrqEn_host (s : State) (b : Bool) : (s.setIrqEn b).host = s.host := rfl
@[simp] theorem State.setIrqEn_schedule (s : State) (b : Bool) : (s.setIrqEn b).schedule = s.schedule := rfl
@[simp] theorem State.setIrqEn_unstable (s : State) (b : Bool) : (s.setIrqEn b).unstable = s.unstable := rfl
@[simp] theorem State.setIrqEn_freeCtr (s : State) (b : Bool) : (s.setIrqEn b).freeCtr = s.freeCtr := rfl

/-! ### State.ack -/

@[simp] theorem State.ack_build (s : State) (v : Word) : (s.ack v).build = s.build := rfl
@[simp] theorem State.ack_regs (s : State) (v : Word) : (s.ack v).regs = s.regs.acknowledge v := rfl
@[simp] theorem State.ack_cfg (s : State) (v : Word) : (s.ack v).cfg = s.cfg := rfl
@[simp] theorem State.ack_phase (s : State) (v : Word) : (s.ack v).phase = s.phase := rfl
@[simp] theorem State.ack_passes (s : State) (v : Word) : (s.ack v).passes = s.passes := rfl
@[simp] theorem State.ack_stack (s : State) (v : Word) : (s.ack v).stack = s.stack := rfl
@[simp] theorem State.ack_queue (s : State) (v : Word) : (s.ack v).queue = s.queue := rfl
@[simp] theorem State.ack_pending (s : State) (v : Word) : (s.ack v).pending = s.pending := rfl
@[simp] theorem State.ack_work (s : State) (v : Word) : (s.ack v).work = s.work := rfl
@[simp] theorem State.ack_mem (s : State) (v : Word) : (s.ack v).mem = s.mem := rfl
@[simp] theorem State.ack_cache (s : State) (v : Word) : (s.ack v).cache = s.cache := rfl
@[simp] theorem State.ack_cacheReady (s : State) (v : Word) : (s.ack v).cacheReady = s.cacheReady := rfl
@[simp] theorem State.ack_sinks (s : State) (v : Word) : (s.ack v).sinks = s.sinks := rfl
@[simp] theorem State.ack_host (s : State) (v : Word) : (s.ack v).host = s.host := rfl
@[simp] theorem State.ack_schedule (s : State) (v : Word) : (s.ack v).schedule = s.schedule := rfl
@[simp] theorem State.ack_unstable (s : State) (v : Word) : (s.ack v).unstable = s.unstable := rfl
@[simp] theorem State.ack_freeCtr (s : State) (v : Word) : (s.ack v).freeCtr = s.freeCtr := rfl

/-! ### State.latchStart -/

@[simp] theorem State.latchStart_build (s : State) : s.latchStart.build = s.build := rfl
@[simp] theorem State.latchStart_regs (s : State) : s.latchStart.regs = s.regs.clearForStart := rfl
@[simp] theorem State.latchStart_cfg (s : State) : s.latchStart.cfg = s.regs.toCfg := rfl
@[simp] theorem State.latchStart_phase (s : State) : s.latchStart.phase = s.phase := rfl
@[simp] theorem State.latchStart_passes (s : State) : s.latchStart.passes = s.passes := rfl
@[simp] theorem State.latchStart_stack (s : State) : s.latchStart.stack = s.stack := rfl
@[simp] theorem State.latchStart_queue (s : State) : s.latchStart.queue = s.queue := rfl
@[simp] theorem State.latchStart_pending (s : State) : s.latchStart.pending = s.pending := rfl
@[simp] theorem State.latchStart_work (s : State) : s.latchStart.work = s.work := rfl
@[simp] theorem State.latchStart_mem (s : State) : s.latchStart.mem = s.mem := rfl
@[simp] theorem State.latchStart_cache (s : State) : s.latchStart.cache = s.cache := rfl
@[simp] theorem State.latchStart_cacheReady (s : State) : s.latchStart.cacheReady = s.cacheReady := rfl
@[simp] theorem State.latchStart_sinks (s : State) : s.latchStart.sinks = s.sinks := rfl
@[simp] theorem State.latchStart_host (s : State) : s.latchStart.host = s.host := rfl
@[simp] theorem State.latchStart_schedule (s : State) : s.latchStart.schedule = s.schedule := rfl
@[simp] theorem State.latchStart_unstable (s : State) : s.latchStart.unstable = [] := rfl
@[simp] theorem State.latchStart_freeCtr (s : State) : s.latchStart.freeCtr = s.freeCtr := rfl

/-! ### State.beginRun -/

@[simp] theorem State.beginRun_build (s : State) : s.beginRun.build = s.build := rfl
@[simp] theorem State.beginRun_regs (s : State) : s.beginRun.regs = { s.regs with busy := true } := rfl
@[simp] theorem State.beginRun_cfg (s : State) : s.beginRun.cfg = s.cfg := rfl
@[simp] theorem State.beginRun_phase (s : State) : s.beginRun.phase = .active := rfl
@[simp] theorem State.beginRun_passes (s : State) : s.beginRun.passes = passList s.cfg.colordiff := rfl
@[simp] theorem State.beginRun_stack (s : State) : s.beginRun.stack = [rootFrame s.cfg.W s.cfg.H] := rfl
@[simp] theorem State.beginRun_queue (s : State) : s.beginRun.queue = [] := rfl
@[simp] theorem State.beginRun_pending (s : State) : s.beginRun.pending = s.pending := rfl
@[simp] theorem State.beginRun_work (s : State) : s.beginRun.work = s.work := rfl
@[simp] theorem State.beginRun_mem (s : State) : s.beginRun.mem = s.mem := rfl
@[simp] theorem State.beginRun_cache (s : State) : s.beginRun.cache = s.cache := rfl
@[simp] theorem State.beginRun_cacheReady (s : State) : s.beginRun.cacheReady = s.cacheReady := rfl
@[simp] theorem State.beginRun_sinks (s : State) : s.beginRun.sinks = s.sinks := rfl
@[simp] theorem State.beginRun_host (s : State) : s.beginRun.host = s.host := rfl
@[simp] theorem State.beginRun_schedule (s : State) : s.beginRun.schedule = s.schedule := rfl
@[simp] theorem State.beginRun_unstable (s : State) : s.beginRun.unstable = s.unstable := rfl
@[simp] theorem State.beginRun_freeCtr (s : State) : s.beginRun.freeCtr = s.freeCtr := rfl

/-! ### State.raiseFault -/

@[simp] theorem State.raiseFault_build (s : State) (f : RunFault) (info : Word) : (s.raiseFault f info).build = s.build := rfl
@[simp] theorem State.raiseFault_regs (s : State) (f : RunFault) (info : Word) : (s.raiseFault f info).regs = s.regs.enterFault f info := rfl
@[simp] theorem State.raiseFault_cfg (s : State) (f : RunFault) (info : Word) : (s.raiseFault f info).cfg = s.cfg := rfl
@[simp] theorem State.raiseFault_phase (s : State) (f : RunFault) (info : Word) : (s.raiseFault f info).phase = .idle := rfl
@[simp] theorem State.raiseFault_passes (s : State) (f : RunFault) (info : Word) : (s.raiseFault f info).passes = [] := rfl
@[simp] theorem State.raiseFault_stack (s : State) (f : RunFault) (info : Word) : (s.raiseFault f info).stack = [] := rfl
@[simp] theorem State.raiseFault_queue (s : State) (f : RunFault) (info : Word) : (s.raiseFault f info).queue = [] := rfl
@[simp] theorem State.raiseFault_pending (s : State) (f : RunFault) (info : Word) : (s.raiseFault f info).pending = none := rfl
@[simp] theorem State.raiseFault_work (s : State) (f : RunFault) (info : Word) : (s.raiseFault f info).work = s.work := rfl
@[simp] theorem State.raiseFault_mem (s : State) (f : RunFault) (info : Word) : (s.raiseFault f info).mem = s.mem := rfl
@[simp] theorem State.raiseFault_cache (s : State) (f : RunFault) (info : Word) : (s.raiseFault f info).cache = s.cache := rfl
@[simp] theorem State.raiseFault_cacheReady (s : State) (f : RunFault) (info : Word) : (s.raiseFault f info).cacheReady = s.cacheReady := rfl
@[simp] theorem State.raiseFault_sinks (s : State) (f : RunFault) (info : Word) : (s.raiseFault f info).sinks = s.sinks := rfl
@[simp] theorem State.raiseFault_host (s : State) (f : RunFault) (info : Word) : (s.raiseFault f info).host = s.host := rfl
@[simp] theorem State.raiseFault_schedule (s : State) (f : RunFault) (info : Word) : (s.raiseFault f info).schedule = s.schedule := rfl
@[simp] theorem State.raiseFault_unstable (s : State) (f : RunFault) (info : Word) : (s.raiseFault f info).unstable = s.unstable := rfl
@[simp] theorem State.raiseFault_freeCtr (s : State) (f : RunFault) (info : Word) : (s.raiseFault f info).freeCtr = s.freeCtr := rfl

/-! ### State.writeDone -/

@[simp] theorem State.writeDone_build (s : State) : s.writeDone.build = s.build := rfl
@[simp] theorem State.writeDone_regs (s : State) : s.writeDone.regs = s.regs := rfl
@[simp] theorem State.writeDone_cfg (s : State) : s.writeDone.cfg = s.cfg := rfl
@[simp] theorem State.writeDone_phase (s : State) : s.writeDone.phase = s.phase := rfl
@[simp] theorem State.writeDone_passes (s : State) : s.writeDone.passes = s.passes := rfl
@[simp] theorem State.writeDone_stack (s : State) : s.writeDone.stack = s.stack := rfl
@[simp] theorem State.writeDone_queue (s : State) : s.writeDone.queue = s.queue := rfl
@[simp] theorem State.writeDone_pending (s : State) : s.writeDone.pending = s.pending := rfl
@[simp] theorem State.writeDone_work (s : State) : s.writeDone.work = s.work := rfl
@[simp] theorem State.writeDone_mem (s : State) : s.writeDone.mem = s.mem := rfl
@[simp] theorem State.writeDone_cache (s : State) : s.writeDone.cache = s.cache := rfl
@[simp] theorem State.writeDone_cacheReady (s : State) : s.writeDone.cacheReady = s.cacheReady := rfl
@[simp] theorem State.writeDone_sinks (s : State) : s.writeDone.sinks = s.sinks := rfl
@[simp] theorem State.writeDone_host (s : State) : s.writeDone.host = { s.host with err := false } := rfl
@[simp] theorem State.writeDone_schedule (s : State) : s.writeDone.schedule = s.schedule := rfl
@[simp] theorem State.writeDone_unstable (s : State) : s.writeDone.unstable = s.unstable := rfl
@[simp] theorem State.writeDone_freeCtr (s : State) : s.writeDone.freeCtr = s.freeCtr := rfl

/-! ### State.readDone -/

@[simp] theorem State.readDone_build (s : State) (v : Word) : (s.readDone v).build = s.build := rfl
@[simp] theorem State.readDone_regs (s : State) (v : Word) : (s.readDone v).regs = s.regs := rfl
@[simp] theorem State.readDone_cfg (s : State) (v : Word) : (s.readDone v).cfg = s.cfg := rfl
@[simp] theorem State.readDone_phase (s : State) (v : Word) : (s.readDone v).phase = s.phase := rfl
@[simp] theorem State.readDone_passes (s : State) (v : Word) : (s.readDone v).passes = s.passes := rfl
@[simp] theorem State.readDone_stack (s : State) (v : Word) : (s.readDone v).stack = s.stack := rfl
@[simp] theorem State.readDone_queue (s : State) (v : Word) : (s.readDone v).queue = s.queue := rfl
@[simp] theorem State.readDone_pending (s : State) (v : Word) : (s.readDone v).pending = s.pending := rfl
@[simp] theorem State.readDone_work (s : State) (v : Word) : (s.readDone v).work = s.work := rfl
@[simp] theorem State.readDone_mem (s : State) (v : Word) : (s.readDone v).mem = s.mem := rfl
@[simp] theorem State.readDone_cache (s : State) (v : Word) : (s.readDone v).cache = s.cache := rfl
@[simp] theorem State.readDone_cacheReady (s : State) (v : Word) : (s.readDone v).cacheReady = s.cacheReady := rfl
@[simp] theorem State.readDone_sinks (s : State) (v : Word) : (s.readDone v).sinks = s.sinks := rfl
@[simp] theorem State.readDone_host (s : State) (v : Word) : (s.readDone v).host = { rdata := v, err := false } := rfl
@[simp] theorem State.readDone_schedule (s : State) (v : Word) : (s.readDone v).schedule = s.schedule := rfl
@[simp] theorem State.readDone_unstable (s : State) (v : Word) : (s.readDone v).unstable = s.unstable := rfl
@[simp] theorem State.readDone_freeCtr (s : State) (v : Word) : (s.readDone v).freeCtr = s.freeCtr := rfl

/-! ### State.refuseWrite -/

@[simp] theorem State.refuseWrite_build (s : State) : s.refuseWrite.build = s.build := rfl
@[simp] theorem State.refuseWrite_regs (s : State) : s.refuseWrite.regs = s.regs := rfl
@[simp] theorem State.refuseWrite_cfg (s : State) : s.refuseWrite.cfg = s.cfg := rfl
@[simp] theorem State.refuseWrite_phase (s : State) : s.refuseWrite.phase = s.phase := rfl
@[simp] theorem State.refuseWrite_passes (s : State) : s.refuseWrite.passes = s.passes := rfl
@[simp] theorem State.refuseWrite_stack (s : State) : s.refuseWrite.stack = s.stack := rfl
@[simp] theorem State.refuseWrite_queue (s : State) : s.refuseWrite.queue = s.queue := rfl
@[simp] theorem State.refuseWrite_pending (s : State) : s.refuseWrite.pending = s.pending := rfl
@[simp] theorem State.refuseWrite_work (s : State) : s.refuseWrite.work = s.work := rfl
@[simp] theorem State.refuseWrite_mem (s : State) : s.refuseWrite.mem = s.mem := rfl
@[simp] theorem State.refuseWrite_cache (s : State) : s.refuseWrite.cache = s.cache := rfl
@[simp] theorem State.refuseWrite_cacheReady (s : State) : s.refuseWrite.cacheReady = s.cacheReady := rfl
@[simp] theorem State.refuseWrite_sinks (s : State) : s.refuseWrite.sinks = s.sinks := rfl
@[simp] theorem State.refuseWrite_host (s : State) : s.refuseWrite.host = { s.host with err := s.build.reportsRefused } := rfl
@[simp] theorem State.refuseWrite_schedule (s : State) : s.refuseWrite.schedule = s.schedule := rfl
@[simp] theorem State.refuseWrite_unstable (s : State) : s.refuseWrite.unstable = s.unstable := rfl
@[simp] theorem State.refuseWrite_freeCtr (s : State) : s.refuseWrite.freeCtr = s.freeCtr := rfl

/-! ### State.refuseRead -/

@[simp] theorem State.refuseRead_build (s : State) : s.refuseRead.build = s.build := rfl
@[simp] theorem State.refuseRead_regs (s : State) : s.refuseRead.regs = s.regs := rfl
@[simp] theorem State.refuseRead_cfg (s : State) : s.refuseRead.cfg = s.cfg := rfl
@[simp] theorem State.refuseRead_phase (s : State) : s.refuseRead.phase = s.phase := rfl
@[simp] theorem State.refuseRead_passes (s : State) : s.refuseRead.passes = s.passes := rfl
@[simp] theorem State.refuseRead_stack (s : State) : s.refuseRead.stack = s.stack := rfl
@[simp] theorem State.refuseRead_queue (s : State) : s.refuseRead.queue = s.queue := rfl
@[simp] theorem State.refuseRead_pending (s : State) : s.refuseRead.pending = s.pending := rfl
@[simp] theorem State.refuseRead_work (s : State) : s.refuseRead.work = s.work := rfl
@[simp] theorem State.refuseRead_mem (s : State) : s.refuseRead.mem = s.mem := rfl
@[simp] theorem State.refuseRead_cache (s : State) : s.refuseRead.cache = s.cache := rfl
@[simp] theorem State.refuseRead_cacheReady (s : State) : s.refuseRead.cacheReady = s.cacheReady := rfl
@[simp] theorem State.refuseRead_sinks (s : State) : s.refuseRead.sinks = s.sinks := rfl
@[simp] theorem State.refuseRead_host (s : State) : s.refuseRead.host = { rdata := 0, err := s.build.reportsRefused } := rfl
@[simp] theorem State.refuseRead_schedule (s : State) : s.refuseRead.schedule = s.schedule := rfl
@[simp] theorem State.refuseRead_unstable (s : State) : s.refuseRead.unstable = s.unstable := rfl
@[simp] theorem State.refuseRead_freeCtr (s : State) : s.refuseRead.freeCtr = s.freeCtr := rfl

/-! ### State.hostMemWrite -/

@[simp] theorem State.hostMemWrite_build (s : State) (a : Nat) (v : Byte) : (s.hostMemWrite a v).build = s.build := rfl
@[simp] theorem State.hostMemWrite_regs (s : State) (a : Nat) (v : Byte) : (s.hostMemWrite a v).regs = s.regs := rfl
@[simp] theorem State.hostMemWrite_cfg (s : State) (a : Nat) (v : Byte) : (s.hostMemWrite a v).cfg = s.cfg := rfl
@[simp] theorem State.hostMemWrite_phase (s : State) (a : Nat) (v : Byte) : (s.hostMemWrite a v).phase = s.phase := rfl
@[simp] theorem State.hostMemWrite_passes (s : State) (a : Nat) (v : Byte) : (s.hostMemWrite a v).passes = s.passes := rfl
@[simp] theorem State.hostMemWrite_stack (s : State) (a : Nat) (v : Byte) : (s.hostMemWrite a v).stack = s.stack := rfl
@[simp] theorem State.hostMemWrite_queue (s : State) (a : Nat) (v : Byte) : (s.hostMemWrite a v).queue = s.queue := rfl
@[simp] theorem State.hostMemWrite_pending (s : State) (a : Nat) (v : Byte) : (s.hostMemWrite a v).pending = s.pending := rfl
@[simp] theorem State.hostMemWrite_work (s : State) (a : Nat) (v : Byte) : (s.hostMemWrite a v).work = s.work := rfl
@[simp] theorem State.hostMemWrite_mem (s : State) (a : Nat) (v : Byte) : (s.hostMemWrite a v).mem = Memory.write s.mem a v := rfl
@[simp] theorem State.hostMemWrite_cache (s : State) (a : Nat) (v : Byte) : (s.hostMemWrite a v).cache = s.cache := rfl
@[simp] theorem State.hostMemWrite_cacheReady (s : State) (a : Nat) (v : Byte) : (s.hostMemWrite a v).cacheReady = s.cacheReady := rfl
@[simp] theorem State.hostMemWrite_sinks (s : State) (a : Nat) (v : Byte) : (s.hostMemWrite a v).sinks = s.sinks := rfl
@[simp] theorem State.hostMemWrite_host (s : State) (a : Nat) (v : Byte) : (s.hostMemWrite a v).host = s.host := rfl
@[simp] theorem State.hostMemWrite_schedule (s : State) (a : Nat) (v : Byte) : (s.hostMemWrite a v).schedule = s.schedule := rfl
@[simp] theorem State.hostMemWrite_freeCtr (s : State) (a : Nat) (v : Byte) : (s.hostMemWrite a v).freeCtr = s.freeCtr := rfl

/-! ### State.popNode -/

@[simp] theorem State.popNode_build (s : State) (p : Pass) (fr : Frame) : (s.popNode p fr).build = s.build := rfl
@[simp] theorem State.popNode_regs (s : State) (p : Pass) (fr : Frame) : (s.popNode p fr).regs = s.regs := rfl
@[simp] theorem State.popNode_cfg (s : State) (p : Pass) (fr : Frame) : (s.popNode p fr).cfg = s.cfg := rfl
@[simp] theorem State.popNode_phase (s : State) (p : Pass) (fr : Frame) : (s.popNode p fr).phase = s.phase := rfl
@[simp] theorem State.popNode_passes (s : State) (p : Pass) (fr : Frame) : (s.popNode p fr).passes = s.passes := rfl
@[simp] theorem State.popNode_stack (s : State) (p : Pass) (fr : Frame) : (s.popNode p fr).stack = s.stack.tail := rfl
@[simp] theorem State.popNode_queue (s : State) (p : Pass) (fr : Frame) : (s.popNode p fr).queue = s.queue := rfl
@[simp] theorem State.popNode_pending (s : State) (p : Pass) (fr : Frame) : (s.popNode p fr).pending = s.pending := rfl
@[simp] theorem State.popNode_mem (s : State) (p : Pass) (fr : Frame) : (s.popNode p fr).mem = s.mem := rfl
@[simp] theorem State.popNode_cache (s : State) (p : Pass) (fr : Frame) : (s.popNode p fr).cache = s.cache := rfl
@[simp] theorem State.popNode_cacheReady (s : State) (p : Pass) (fr : Frame) : (s.popNode p fr).cacheReady = s.cacheReady := rfl
@[simp] theorem State.popNode_sinks (s : State) (p : Pass) (fr : Frame) : (s.popNode p fr).sinks = s.sinks := rfl
@[simp] theorem State.popNode_host (s : State) (p : Pass) (fr : Frame) : (s.popNode p fr).host = s.host := rfl
@[simp] theorem State.popNode_schedule (s : State) (p : Pass) (fr : Frame) : (s.popNode p fr).schedule = s.schedule := rfl
@[simp] theorem State.popNode_unstable (s : State) (p : Pass) (fr : Frame) : (s.popNode p fr).unstable = s.unstable := rfl
@[simp] theorem State.popNode_freeCtr (s : State) (p : Pass) (fr : Frame) : (s.popNode p fr).freeCtr = s.freeCtr + 1 := rfl

/-! ### State.enqueue -/

@[simp] theorem State.enqueue_build (s : State) (ts : List Token) : (s.enqueue ts).build = s.build := rfl
@[simp] theorem State.enqueue_regs (s : State) (ts : List Token) : (s.enqueue ts).regs = s.regs := rfl
@[simp] theorem State.enqueue_cfg (s : State) (ts : List Token) : (s.enqueue ts).cfg = s.cfg := rfl
@[simp] theorem State.enqueue_phase (s : State) (ts : List Token) : (s.enqueue ts).phase = s.phase := rfl
@[simp] theorem State.enqueue_passes (s : State) (ts : List Token) : (s.enqueue ts).passes = s.passes := rfl
@[simp] theorem State.enqueue_stack (s : State) (ts : List Token) : (s.enqueue ts).stack = s.stack := rfl
@[simp] theorem State.enqueue_queue (s : State) (ts : List Token) : (s.enqueue ts).queue = ts := rfl
@[simp] theorem State.enqueue_pending (s : State) (ts : List Token) : (s.enqueue ts).pending = s.pending := rfl
@[simp] theorem State.enqueue_work (s : State) (ts : List Token) : (s.enqueue ts).work = s.work := rfl
@[simp] theorem State.enqueue_mem (s : State) (ts : List Token) : (s.enqueue ts).mem = s.mem := rfl
@[simp] theorem State.enqueue_cache (s : State) (ts : List Token) : (s.enqueue ts).cache = s.cache := rfl
@[simp] theorem State.enqueue_cacheReady (s : State) (ts : List Token) : (s.enqueue ts).cacheReady = s.cacheReady := rfl
@[simp] theorem State.enqueue_sinks (s : State) (ts : List Token) : (s.enqueue ts).sinks = s.sinks := rfl
@[simp] theorem State.enqueue_host (s : State) (ts : List Token) : (s.enqueue ts).host = s.host := rfl
@[simp] theorem State.enqueue_schedule (s : State) (ts : List Token) : (s.enqueue ts).schedule = s.schedule := rfl
@[simp] theorem State.enqueue_unstable (s : State) (ts : List Token) : (s.enqueue ts).unstable = s.unstable := rfl
@[simp] theorem State.enqueue_freeCtr (s : State) (ts : List Token) : (s.enqueue ts).freeCtr = s.freeCtr := rfl

/-! ### State.pushChildren -/

@[simp] theorem State.pushChildren_build (s : State) (cs : List Frame) : (s.pushChildren cs).build = s.build := rfl
@[simp] theorem State.pushChildren_regs (s : State) (cs : List Frame) : (s.pushChildren cs).regs = s.regs := rfl
@[simp] theorem State.pushChildren_cfg (s : State) (cs : List Frame) : (s.pushChildren cs).cfg = s.cfg := rfl
@[simp] theorem State.pushChildren_phase (s : State) (cs : List Frame) : (s.pushChildren cs).phase = s.phase := rfl
@[simp] theorem State.pushChildren_passes (s : State) (cs : List Frame) : (s.pushChildren cs).passes = s.passes := rfl
@[simp] theorem State.pushChildren_stack (s : State) (cs : List Frame) : (s.pushChildren cs).stack = cs ++ s.stack := rfl
@[simp] theorem State.pushChildren_queue (s : State) (cs : List Frame) : (s.pushChildren cs).queue = s.queue := rfl
@[simp] theorem State.pushChildren_pending (s : State) (cs : List Frame) : (s.pushChildren cs).pending = s.pending := rfl
@[simp] theorem State.pushChildren_work (s : State) (cs : List Frame) : (s.pushChildren cs).work = s.work := rfl
@[simp] theorem State.pushChildren_mem (s : State) (cs : List Frame) : (s.pushChildren cs).mem = s.mem := rfl
@[simp] theorem State.pushChildren_cache (s : State) (cs : List Frame) : (s.pushChildren cs).cache = s.cache := rfl
@[simp] theorem State.pushChildren_cacheReady (s : State) (cs : List Frame) : (s.pushChildren cs).cacheReady = s.cacheReady := rfl
@[simp] theorem State.pushChildren_sinks (s : State) (cs : List Frame) : (s.pushChildren cs).sinks = s.sinks := rfl
@[simp] theorem State.pushChildren_host (s : State) (cs : List Frame) : (s.pushChildren cs).host = s.host := rfl
@[simp] theorem State.pushChildren_schedule (s : State) (cs : List Frame) : (s.pushChildren cs).schedule = s.schedule := rfl
@[simp] theorem State.pushChildren_unstable (s : State) (cs : List Frame) : (s.pushChildren cs).unstable = s.unstable := rfl
@[simp] theorem State.pushChildren_freeCtr (s : State) (cs : List Frame) : (s.pushChildren cs).freeCtr = s.freeCtr := rfl

/-! ### State.transfer -/

@[simp] theorem State.transfer_build (s : State) (t : Token) (q : List Token) : (s.transfer t q).build = s.build := rfl
@[simp] theorem State.transfer_regs (s : State) (t : Token) (q : List Token) : (s.transfer t q).regs = s.regs.count t.port := rfl
@[simp] theorem State.transfer_cfg (s : State) (t : Token) (q : List Token) : (s.transfer t q).cfg = s.cfg := rfl
@[simp] theorem State.transfer_phase (s : State) (t : Token) (q : List Token) : (s.transfer t q).phase = s.phase := rfl
@[simp] theorem State.transfer_passes (s : State) (t : Token) (q : List Token) : (s.transfer t q).passes = s.passes := rfl
@[simp] theorem State.transfer_stack (s : State) (t : Token) (q : List Token) : (s.transfer t q).stack = s.stack := rfl
@[simp] theorem State.transfer_queue (s : State) (t : Token) (q : List Token) : (s.transfer t q).queue = q := rfl
@[simp] theorem State.transfer_pending (s : State) (t : Token) (q : List Token) : (s.transfer t q).pending = s.pending := rfl
@[simp] theorem State.transfer_work (s : State) (t : Token) (q : List Token) : (s.transfer t q).work = s.work := rfl
@[simp] theorem State.transfer_mem (s : State) (t : Token) (q : List Token) : (s.transfer t q).mem = s.mem := rfl
@[simp] theorem State.transfer_cache (s : State) (t : Token) (q : List Token) : (s.transfer t q).cache = s.cache := rfl
@[simp] theorem State.transfer_cacheReady (s : State) (t : Token) (q : List Token) : (s.transfer t q).cacheReady = s.cacheReady := rfl
@[simp] theorem State.transfer_sinks (s : State) (t : Token) (q : List Token) : (s.transfer t q).sinks = s.sinks.take s.cfg.indexbits t := rfl
@[simp] theorem State.transfer_host (s : State) (t : Token) (q : List Token) : (s.transfer t q).host = s.host := rfl
@[simp] theorem State.transfer_schedule (s : State) (t : Token) (q : List Token) : (s.transfer t q).schedule = s.schedule := rfl
@[simp] theorem State.transfer_unstable (s : State) (t : Token) (q : List Token) : (s.transfer t q).unstable = s.unstable := rfl
@[simp] theorem State.transfer_freeCtr (s : State) (t : Token) (q : List Token) : (s.transfer t q).freeCtr = s.freeCtr := rfl

/-! ### State.assertReset -/

@[simp] theorem State.assertReset_build (s : State) : s.assertReset.build = s.build := rfl
@[simp] theorem State.assertReset_regs (s : State) : s.assertReset.regs = Regs.reset := rfl
@[simp] theorem State.assertReset_cfg (s : State) : s.assertReset.cfg = RunCfg.reset := rfl
@[simp] theorem State.assertReset_phase (s : State) : s.assertReset.phase = .idle := rfl
@[simp] theorem State.assertReset_passes (s : State) : s.assertReset.passes = [] := rfl
@[simp] theorem State.assertReset_stack (s : State) : s.assertReset.stack = [] := rfl
@[simp] theorem State.assertReset_queue (s : State) : s.assertReset.queue = [] := rfl
@[simp] theorem State.assertReset_pending (s : State) : s.assertReset.pending = none := rfl
@[simp] theorem State.assertReset_work (s : State) : s.assertReset.work = Work.reset := rfl
@[simp] theorem State.assertReset_mem (s : State) : s.assertReset.mem = s.mem := rfl
@[simp] theorem State.assertReset_cacheReady (s : State) : s.assertReset.cacheReady = s.cacheReady := rfl
@[simp] theorem State.assertReset_sinks (s : State) : s.assertReset.sinks = s.sinks := rfl
@[simp] theorem State.assertReset_host (s : State) : s.assertReset.host = s.host := rfl
@[simp] theorem State.assertReset_schedule (s : State) : s.assertReset.schedule = s.schedule := rfl
@[simp] theorem State.assertReset_unstable (s : State) : s.assertReset.unstable = s.unstable := rfl
@[simp] theorem State.assertReset_freeCtr (s : State) : s.assertReset.freeCtr = s.freeCtr + 1 := rfl

/-! ### Regs.enterFault -/

@[simp] theorem Regs.enterFault_irqEn (r : Regs) (f : RunFault) (info : Word) : (r.enterFault f info).irqEn = r.irqEn := rfl
@[simp] theorem Regs.enterFault_busy (r : Regs) (f : RunFault) (info : Word) : (r.enterFault f info).busy = false := rfl
@[simp] theorem Regs.enterFault_done (r : Regs) (f : RunFault) (info : Word) : (r.enterFault f info).done = false := rfl
@[simp] theorem Regs.enterFault_fault (r : Regs) (f : RunFault) (info : Word) : (r.enterFault f info).fault = true := rfl
@[simp] theorem Regs.enterFault_errcode (r : Regs) (f : RunFault) (info : Word) : (r.enterFault f info).errcode = f.code := rfl
@[simp] theorem Regs.enterFault_keyframe (r : Regs) (f : RunFault) (info : Word) : (r.enterFault f info).keyframe = r.keyframe := rfl
@[simp] theorem Regs.enterFault_width (r : Regs) (f : RunFault) (info : Word) : (r.enterFault f info).width = r.width := rfl
@[simp] theorem Regs.enterFault_height (r : Regs) (f : RunFault) (info : Word) : (r.enterFault f info).height = r.height := rfl
@[simp] theorem Regs.enterFault_minsize (r : Regs) (f : RunFault) (info : Word) : (r.enterFault f info).minsize = r.minsize := rfl
@[simp] theorem Regs.enterFault_maxdepth (r : Regs) (f : RunFault) (info : Word) : (r.enterFault f info).maxdepth = r.maxdepth := rfl
@[simp] theorem Regs.enterFault_lazyness (r : Regs) (f : RunFault) (info : Word) : (r.enterFault f info).lazyness = r.lazyness := rfl
@[simp] theorem Regs.enterFault_colordiff (r : Regs) (f : RunFault) (info : Word) : (r.enterFault f info).colordiff = r.colordiff := rfl
@[simp] theorem Regs.enterFault_bgra (r : Regs) (f : RunFault) (info : Word) : (r.enterFault f info).bgra = r.bgra := rfl
@[simp] theorem Regs.enterFault_refEn (r : Regs) (f : RunFault) (info : Word) : (r.enterFault f info).refEn = r.refEn := rfl
@[simp] theorem Regs.enterFault_cacheEn (r : Regs) (f : RunFault) (info : Word) : (r.enterFault f info).cacheEn = r.cacheEn := rfl
@[simp] theorem Regs.enterFault_indexbits (r : Regs) (f : RunFault) (info : Word) : (r.enterFault f info).indexbits = r.indexbits := rfl
@[simp] theorem Regs.enterFault_transform (r : Regs) (f : RunFault) (info : Word) : (r.enterFault f info).transform = r.transform := rfl
@[simp] theorem Regs.enterFault_imgBase (r : Regs) (f : RunFault) (info : Word) : (r.enterFault f info).imgBase = r.imgBase := rfl
@[simp] theorem Regs.enterFault_refBase (r : Regs) (f : RunFault) (info : Word) : (r.enterFault f info).refBase = r.refBase := rfl
@[simp] theorem Regs.enterFault_cmdBits (r : Regs) (f : RunFault) (info : Word) : (r.enterFault f info).cmdBits = r.cmdBits := rfl
@[simp] theorem Regs.enterFault_idxCount (r : Regs) (f : RunFault) (info : Word) : (r.enterFault f info).idxCount = r.idxCount := rfl
@[simp] theorem Regs.enterFault_pixBytes (r : Regs) (f : RunFault) (info : Word) : (r.enterFault f info).pixBytes = r.pixBytes := rfl
@[simp] theorem Regs.enterFault_faultAddr (r : Regs) (f : RunFault) (info : Word) : (r.enterFault f info).faultAddr = if f = .mem then info else 0 := rfl

/-! ### Regs.complete -/

@[simp] theorem Regs.complete_irqEn (r : Regs) : r.complete.irqEn = r.irqEn := rfl
@[simp] theorem Regs.complete_busy (r : Regs) : r.complete.busy = false := rfl
@[simp] theorem Regs.complete_done (r : Regs) : r.complete.done = true := rfl
@[simp] theorem Regs.complete_fault (r : Regs) : r.complete.fault = r.fault := rfl
@[simp] theorem Regs.complete_errcode (r : Regs) : r.complete.errcode = r.errcode := rfl
@[simp] theorem Regs.complete_keyframe (r : Regs) : r.complete.keyframe = r.keyframe := rfl
@[simp] theorem Regs.complete_width (r : Regs) : r.complete.width = r.width := rfl
@[simp] theorem Regs.complete_height (r : Regs) : r.complete.height = r.height := rfl
@[simp] theorem Regs.complete_minsize (r : Regs) : r.complete.minsize = r.minsize := rfl
@[simp] theorem Regs.complete_maxdepth (r : Regs) : r.complete.maxdepth = r.maxdepth := rfl
@[simp] theorem Regs.complete_lazyness (r : Regs) : r.complete.lazyness = r.lazyness := rfl
@[simp] theorem Regs.complete_colordiff (r : Regs) : r.complete.colordiff = r.colordiff := rfl
@[simp] theorem Regs.complete_bgra (r : Regs) : r.complete.bgra = r.bgra := rfl
@[simp] theorem Regs.complete_refEn (r : Regs) : r.complete.refEn = r.refEn := rfl
@[simp] theorem Regs.complete_cacheEn (r : Regs) : r.complete.cacheEn = r.cacheEn := rfl
@[simp] theorem Regs.complete_indexbits (r : Regs) : r.complete.indexbits = r.indexbits := rfl
@[simp] theorem Regs.complete_transform (r : Regs) : r.complete.transform = r.transform := rfl
@[simp] theorem Regs.complete_imgBase (r : Regs) : r.complete.imgBase = r.imgBase := rfl
@[simp] theorem Regs.complete_refBase (r : Regs) : r.complete.refBase = r.refBase := rfl
@[simp] theorem Regs.complete_cmdBits (r : Regs) : r.complete.cmdBits = r.cmdBits := rfl
@[simp] theorem Regs.complete_idxCount (r : Regs) : r.complete.idxCount = r.idxCount := rfl
@[simp] theorem Regs.complete_pixBytes (r : Regs) : r.complete.pixBytes = r.pixBytes := rfl
@[simp] theorem Regs.complete_faultAddr (r : Regs) : r.complete.faultAddr = r.faultAddr := rfl

/-! ### Regs.clearForStart -/

@[simp] theorem Regs.clearForStart_irqEn (r : Regs) : r.clearForStart.irqEn = r.irqEn := rfl
@[simp] theorem Regs.clearForStart_busy (r : Regs) : r.clearForStart.busy = r.busy := rfl
@[simp] theorem Regs.clearForStart_done (r : Regs) : r.clearForStart.done = false := rfl
@[simp] theorem Regs.clearForStart_fault (r : Regs) : r.clearForStart.fault = false := rfl
@[simp] theorem Regs.clearForStart_errcode (r : Regs) : r.clearForStart.errcode = 0 := rfl
@[simp] theorem Regs.clearForStart_keyframe (r : Regs) : r.clearForStart.keyframe = !r.refEn := rfl
@[simp] theorem Regs.clearForStart_width (r : Regs) : r.clearForStart.width = r.width := rfl
@[simp] theorem Regs.clearForStart_height (r : Regs) : r.clearForStart.height = r.height := rfl
@[simp] theorem Regs.clearForStart_minsize (r : Regs) : r.clearForStart.minsize = r.minsize := rfl
@[simp] theorem Regs.clearForStart_maxdepth (r : Regs) : r.clearForStart.maxdepth = r.maxdepth := rfl
@[simp] theorem Regs.clearForStart_lazyness (r : Regs) : r.clearForStart.lazyness = r.lazyness := rfl
@[simp] theorem Regs.clearForStart_colordiff (r : Regs) : r.clearForStart.colordiff = r.colordiff := rfl
@[simp] theorem Regs.clearForStart_bgra (r : Regs) : r.clearForStart.bgra = r.bgra := rfl
@[simp] theorem Regs.clearForStart_refEn (r : Regs) : r.clearForStart.refEn = r.refEn := rfl
@[simp] theorem Regs.clearForStart_cacheEn (r : Regs) : r.clearForStart.cacheEn = r.cacheEn := rfl
@[simp] theorem Regs.clearForStart_indexbits (r : Regs) : r.clearForStart.indexbits = r.indexbits := rfl
@[simp] theorem Regs.clearForStart_transform (r : Regs) : r.clearForStart.transform = r.transform := rfl
@[simp] theorem Regs.clearForStart_imgBase (r : Regs) : r.clearForStart.imgBase = r.imgBase := rfl
@[simp] theorem Regs.clearForStart_refBase (r : Regs) : r.clearForStart.refBase = r.refBase := rfl
@[simp] theorem Regs.clearForStart_cmdBits (r : Regs) : r.clearForStart.cmdBits = 0 := rfl
@[simp] theorem Regs.clearForStart_idxCount (r : Regs) : r.clearForStart.idxCount = 0 := rfl
@[simp] theorem Regs.clearForStart_pixBytes (r : Regs) : r.clearForStart.pixBytes = 0 := rfl
@[simp] theorem Regs.clearForStart_faultAddr (r : Regs) : r.clearForStart.faultAddr = 0 := rfl

/-! ### What a run's configuration is read from -/

@[simp] theorem Regs.clearForStart_toCfg (r : Regs) : r.clearForStart.toCfg = r.toCfg := rfl
@[simp] theorem Regs.complete_toCfg (r : Regs) : r.complete.toCfg = r.toCfg := rfl
@[simp] theorem Regs.enterFault_toCfg (r : Regs) (f : RunFault) (info : Word) : (r.enterFault f info).toCfg = r.toCfg := rfl
@[simp] theorem Regs.count_toCfg (r : Regs) (p : Port) : (r.count p).toCfg = r.toCfg := by cases p <;> rfl
@[simp] theorem Regs.acknowledge_toCfg (r : Regs) (v : Word) : (r.acknowledge v).toCfg = r.toCfg := by
  unfold Regs.acknowledge; split <;> split <;> rfl
@[simp] theorem Regs.irqEn_toCfg (r : Regs) (b : Bool) : ({ r with irqEn := b } : Regs).toCfg = r.toCfg := rfl
@[simp] theorem Regs.busy_toCfg (r : Regs) (b : Bool) : ({ r with busy := b } : Regs).toCfg = r.toCfg := rfl

end Sys2Proof.Machine
end

