-- ==== Sys2Proof/Laws/Memory.lean ====
section
/-! SUPPORT. Pixel memory: a write keeps the canonical form, changes the byte written and no other. -/

namespace Sys2Proof.Machine

theorem Memory.read_write_same (m : Memory) (a : Nat) (v : Byte) (h : Memory.wf m) :
    Memory.read (Memory.write m a v) a = v := by
  induction m with
  | nil => by_cases hv : v = unlistedByte <;> simp [Memory.write, Memory.read, hv]
  | cons c rest ih =>
    obtain ⟨b, u⟩ := c
    have hr : Memory.wf rest := ⟨(List.pairwise_cons.1 h.1).2, fun c hc => h.2 c (List.mem_cons_of_mem _ hc)⟩
    have above : ∀ m' : Memory, (∀ c ∈ m', a < c.1) → Memory.read m' a = unlistedByte := by
      intro m'
      induction m' with
      | nil => intro _; rfl
      | cons c r ih' =>
        intro hc
        have h1 := hc c (List.mem_cons_self ..)
        have h2 := ih' fun d hd => hc d (List.mem_cons_of_mem _ hd)
        simp [Memory.read, Nat.ne_of_lt h1, h2]
    have hb : ∀ c ∈ rest, b < c.1 := (List.pairwise_cons.1 h.1).1
    rcases Nat.lt_trichotomy a b with hab | hab | hab
    · by_cases hv : v = unlistedByte
      · have := above rest fun c hc => Nat.lt_trans hab (hb c hc)
        simp [Memory.write, Memory.read, hab, hv, Nat.ne_of_lt hab, this]
      · simp [Memory.write, Memory.read, hab, hv]
    · subst hab
      by_cases hv : v = unlistedByte
      · simp [Memory.write, hv, above rest hb]
      · simp [Memory.write, Memory.read, hv]
    · have h1 : ¬a < b := by omega
      have h2 : a ≠ b := by omega
      simp [Memory.write, Memory.read, h1, h2, ih hr]

theorem Memory.read_write_other (m : Memory) (a a' : Nat) (v : Byte) (hne : a' ≠ a) :
    Memory.read (Memory.write m a v) a' = Memory.read m a' := by
  induction m with
  | nil => by_cases hv : v = unlistedByte <;> simp [Memory.write, Memory.read, hv, hne]
  | cons c rest ih =>
    obtain ⟨b, u⟩ := c
    by_cases hlt : a < b
    · by_cases hv : v = unlistedByte <;> simp [Memory.write, Memory.read, hlt, hv, hne]
    · by_cases heq : a = b
      · subst heq
        by_cases hv : v = unlistedByte <;> simp [Memory.write, Memory.read, hv, hne]
      · simp [Memory.write, Memory.read, hlt, heq, ih]

/-- What a write lists: the byte written, or bytes that were listed. -/
theorem Memory.mem_write {m : Memory} {a : Nat} {v : Byte} {c : Host.Cell} (hc : c ∈ Memory.write m a v) :
    (c = (a, v) ∧ v ≠ unlistedByte) ∨ c ∈ m := by
  induction m with
  | nil =>
    by_cases hv : v = unlistedByte <;> simp_all [Memory.write]
  | cons d rest ih =>
    obtain ⟨b, u⟩ := d
    unfold Memory.write at hc
    split at hc
    · by_cases hv : v = unlistedByte
      · simp only [hv, if_true] at hc; exact .inr hc
      · simp only [hv, if_false, List.mem_cons] at hc
        rcases hc with rfl | hc
        · exact .inl ⟨rfl, hv⟩
        · exact .inr (List.mem_cons.2 hc)
    · split at hc
      · by_cases hv : v = unlistedByte
        · simp only [hv, if_true] at hc; exact .inr (List.mem_cons_of_mem _ hc)
        · simp only [hv, if_false, List.mem_cons] at hc
          rcases hc with rfl | hc
          · exact .inl ⟨rfl, hv⟩
          · exact .inr (List.mem_cons_of_mem _ hc)
      · rcases List.mem_cons.1 hc with rfl | hc
        · exact .inr (List.mem_cons_self ..)
        · rcases ih hc with h | h
          · exact .inl h
          · exact .inr (List.mem_cons_of_mem _ h)

theorem Memory.write_wf (m : Memory) (a : Nat) (v : Byte) (h : Memory.wf m) : Memory.wf (Memory.write m a v) := by
  refine ⟨?_, fun c hc => ?_⟩
  · induction m with
    | nil => by_cases hv : v = unlistedByte <;> simp [Memory.write, hv]
    | cons d rest ih =>
      obtain ⟨b, u⟩ := d
      obtain ⟨hb, hp⟩ := List.pairwise_cons.1 h.1
      have hr : Memory.wf rest := ⟨hp, fun c hc => h.2 c (List.mem_cons_of_mem _ hc)⟩
      unfold Memory.write
      split
      · rename_i hab
        split
        · exact h.1
        · refine List.pairwise_cons.2 ⟨fun c hc => ?_, h.1⟩
          rcases List.mem_cons.1 hc with rfl | hc
          · exact hab
          · exact Nat.lt_trans hab (hb c hc)
      · split
        · rename_i hab
          subst hab
          split
          · exact hp
          · exact List.pairwise_cons.2 ⟨fun c hc => hb c hc, hp⟩
        · refine List.pairwise_cons.2 ⟨fun c hc => ?_, ih hr⟩
          rcases Memory.mem_write hc with ⟨rfl, _⟩ | hc
          · simp only; omega
          · exact hb c hc
  · rcases Memory.mem_write hc with ⟨rfl, hv⟩ | hc
    · exact hv
    · exact h.2 c hc

theorem reset_mem_wf : Memory.wf State.reset.mem := by decide

/-! ### Pixel reads -/

/-- A read is affected exactly when one of its four bytes was written (R325). -/
theorem affected_iff {s : State} {a : Nat} : s.affected a = true ↔ ∃ b ∈ s.unstable, a ≤ b ∧ b ≤ a + 3 := by
  simp only [State.affected, pixelBytes, List.any_cons, List.any_nil, Bool.or_false, Bool.or_eq_true, decide_eq_true_eq]
  constructor
  · rintro (h | h | h | h)
    all_goals exact ⟨_, h, by omega, by omega⟩
  · rintro ⟨b, hb, h1, h2⟩
    obtain rfl | rfl | rfl | rfl : b = a ∨ b = a + 1 ∨ b = a + 2 ∨ b = a + 3 := by omega
    all_goals simp [hb]

theorem pixelAt_affected {s : State} {a : Nat} (h : s.affected a = true) : s.pixelAt a = Config.freePixel s.freeCtr a := by
  simp [State.pixelAt, h]

theorem pixelAt_unaffected {s : State} {a : Nat} (h : s.affected a = false) : s.pixelAt a = fourBytes s.mem a := by
  simp [State.pixelAt, h]

/-- With nothing written during the run, pixels read as memory holds them (R79). -/
theorem pixelAt_of_unstable_nil {s : State} (h : s.unstable = []) (a : Nat) : s.pixelAt a = fourBytes s.mem a := by
  simp [State.pixelAt, State.affected, h]

/-- What a host write does to the list of unstable bytes. -/
theorem mem_hostMemWrite_unstable {s : State} {a b : Nat} {v : Byte} :
    b ∈ (s.hostMemWrite a v).unstable ↔ b ∈ s.unstable ∨ (b = a ∧ s.regs.busy = true ∧ s.inRegions a = true) := by
  simp only [State.hostMemWrite]
  split
  · next h =>
    simp only [Bool.and_eq_true] at h
    simp [h.1.1, h.1.2, or_comm]
  · next h =>
    by_cases hb : b = a
    · subst hb
      simp only [Bool.and_eq_true, Bool.not_eq_true', not_and, Bool.not_eq_false, List.contains_iff_mem] at h
      exact ⟨.inl, fun o => o.elim id fun ⟨_, h1, h2⟩ => h ⟨h1, h2⟩⟩
    · simp [hb]

end Sys2Proof.Machine
end

