-- ==== Sys2Proof/Laws/Ops.lean ====
section
/-! SUPPORT. One lemma for each shared operation, saying everything it can do; later proofs cite these and do not unfold. -/

namespace Sys2Proof.Machine

theorem enabledNode_eq_some {s : State} {p : Pass} {fr : Frame} :
    s.enabledNode = some (p, fr) ↔
      s.phase = .active ∧ s.queue = [] ∧ (∃ ps, s.passes = p :: ps) ∧ ∃ rest, s.stack = fr :: rest := by
  unfold State.enabledNode
  by_cases h : s.phase = .active ∧ s.queue = []
  · rw [if_pos h]
    rcases hp : s.passes with _ | ⟨q, ps⟩ <;> rcases hs : s.stack with _ | ⟨g, rest⟩ <;> simp [h]
  · rw [if_neg h]
    simp only [reduceCtorEq, false_iff]
    exact fun ⟨h1, h2, _⟩ => h ⟨h1, h2⟩

/-- Everything a node step that answers a next state did. -/
theorem nodeStep_next {s t : State} {want : NodeClass} {act : Pass → Frame → State → State}
    (h : s.nodeStep want act = .next t) :
    ∃ p fr, s.enabledNode = some (p, fr) ∧
      ((∃ a, s.firstError fr = some a ∧ t = (s.popNode p fr).raiseFault .mem (BitVec.ofNat 32 a)) ∨
        (s.firstError fr = none ∧ s.classOf p fr = want ∧ t = act p fr (s.popNode p fr))) := by
  unfold State.nodeStep at h
  rcases he : s.enabledNode with _ | ⟨p, fr⟩
  · simp [he] at h
  · refine ⟨p, fr, rfl, ?_⟩
    simp only [he] at h
    rcases hf : s.firstError fr with _ | a
    · simp only [hf] at h
      split at h
      · next hc => exact .inr ⟨rfl, hc, by simpa using h.symm⟩
      · simp at h
    · exact .inl ⟨a, rfl, by simpa [hf] using h.symm⟩

/-- A node step whose read set errs (R291). -/
theorem nodeStep_error {s : State} {p : Pass} {fr : Frame} {a : Nat} (want : NodeClass) (act : Pass → Frame → State → State)
    (he : s.enabledNode = some (p, fr)) (hf : s.firstError fr = some a) :
    s.nodeStep want act = .next ((s.popNode p fr).raiseFault .mem (BitVec.ofNat 32 a)) := by
  simp [State.nodeStep, he, hf]

/-- A node step of the class the node has (R180). -/
theorem nodeStep_ok {s : State} {p : Pass} {fr : Frame} {want : NodeClass} (act : Pass → Frame → State → State)
    (he : s.enabledNode = some (p, fr)) (hf : s.firstError fr = none) (hc : s.classOf p fr = want) :
    s.nodeStep want act = .next (act p fr (s.popNode p fr)) := by
  simp [State.nodeStep, he, hf, hc]

theorem nodeStep_ne_fault (s : State) (want : NodeClass) (act : Pass → Frame → State → State) (r : Fault) :
    s.nodeStep want act ≠ .fault r := by
  unfold State.nodeStep
  repeat' split
  all_goals simp

/-- Everything a cache response step does (R209). -/
theorem cacheResponse_eq {s : State} {pd : Pending} (act : Pending → State → Resp → Host.Outcome State Fault Refusal)
    (hp : s.phase = .cacheWait) (hd : s.pending = some pd) :
    s.cacheResponse act =
      act pd { s with cache := (cacheLookup s.cache pd.key).1, pending := none } (cacheLookup s.cache pd.key).2 := by
  simp [State.cacheResponse, hp, hd]

/-- The three answers of the attached cache (R231 to R235). -/
theorem cacheLookup_cases (c : CacheState) (k : Key) :
    (k ∈ c.failing ∧ cacheLookup c k = (Config.cacheAfterError c k, .error)) ∨
      (k ∉ c.failing ∧ ∃ i, cacheSlotOf c k = some i ∧ cacheLookup c k = (Config.cacheTouch c i, .hit i)) ∨
      (k ∉ c.failing ∧ cacheSlotOf c k = none ∧ cacheLookup c k = (Config.cacheAdd c k, .inserted)) := by
  unfold cacheLookup
  by_cases h : k ∈ c.failing
  · exact .inl ⟨h, by simp [h]⟩
  · rcases hs : cacheSlotOf c k with _ | i
    · exact .inr (.inr ⟨h, rfl, by simp [h]⟩)
    · exact .inr (.inl ⟨h, i, rfl, by simp [h]⟩)

/-- Everything START does (R132, R134). -/
theorem start_cases (s : State) :
    (s.regs.busy = true ∧ s.start = s) ∨
      (s.regs.busy = false ∧ ∃ f, configCheck s.build s.regs.toCfg = some f ∧ s.start = s.latchStart.raiseFault f 0) ∨
      (s.regs.busy = false ∧ configCheck s.build s.regs.toCfg = none ∧ s.start = s.latchStart.beginRun) := by
  unfold State.start
  rcases hb : s.regs.busy with _ | _
  · rcases hc : configCheck s.build s.regs.toCfg with _ | f
    · exact .inr (.inr ⟨rfl, rfl, by simp⟩)
    · exact .inr (.inl ⟨rfl, f, rfl, by simp⟩)
  · exact .inl ⟨rfl, by simp⟩

/-- A register stands at exactly the offsets that are 4-byte aligned (R21, R22, R113). -/
theorem regAt_isSome (off : BitVec 6) : (regAt off).isSome = alignedOffset off := by
  revert off; decide

/-- A step with no input waiting is the block's own. -/
theorem step_of_schedule_nil {s : State} (h : s.schedule = []) : step s = ownStep s := by
  simp [step, nextMove, h]

/-- A step with an input waiting is that input's. -/
theorem step_of_schedule_cons {s : State} {e : Event} {rest : List Event} (h : s.schedule = e :: rest) :
    step s = runEvent e { s with schedule := rest } := by
  simp [step, nextMove, h]

/-- The block's own step, by phase and control state (R182, R183, R180, R209, R306). -/
theorem ownStep_idle {s : State} (h : s.phase = .idle) : ownStep s = .next s := by simp [ownStep, h]

theorem ownStep_transfer {s : State} {t : Token} {q : List Token} (h : s.phase = .active) (hq : s.queue = t :: q) :
    ownStep s = .next (if s.sinks.accepts t.port then s.transfer t q else s) := by simp [ownStep, h, hq]

theorem ownStep_passEnd {s : State} (h : s.phase = .active) (hq : s.queue = []) (hs : s.stack = []) :
    ownStep s = .next s.passEnd := by simp [ownStep, h, hq, hs]

theorem ownStep_symbol {s : State} {i : Instr} {fr : Frame} {rest : List Frame} (h : s.phase = .active)
    (hq : s.queue = []) (hs : s.stack = fr :: rest) (hn : s.nextSymbol = some i) : ownStep s = exec i s := by
  simp [ownStep, h, hq, hs, hn]

theorem ownStep_request {s : State} {fr : Frame} {rest : List Frame} (h : s.phase = .active)
    (hq : s.queue = []) (hs : s.stack = fr :: rest) (hn : s.nextSymbol = none) : ownStep s = s.sendRequest := by
  simp [ownStep, h, hq, hs, hn]

theorem ownStep_response {s : State} {i : Instr} (h : s.phase = .cacheWait) (hr : s.cacheReady = true)
    (hn : s.nextSymbol = some i) : ownStep s = exec i s := by
  simp [ownStep, h, hr, hn]

theorem ownStep_wait {s : State} (h : s.phase = .cacheWait) (hr : s.cacheReady = false) : ownStep s = .next s := by
  simp [ownStep, h, hr]

end Sys2Proof.Machine
end

