-- ==== Sys2Proof/Laws/PerInstr.lean ====
section
/-! SUPPORT. The family OneEncoding, one lemma per constructor: an instruction is carried by a host access or by the command
stream, never by both and never by neither. -/

namespace Sys2Proof.Laws.OneEncoding

/-- A host operation has a 39-bit access and no command bits; a node symbol has 1 to 3 command bits and no access (R104, R105). -/
def Statement (i : Instr) : Prop :=
  ((encodeHost i).isSome = true ∧ encodeSymbol true i = none) ∨
    (encodeHost i = none ∧ ∃ bits, encodeSymbol true i = some bits ∧ 1 ≤ bits.length ∧ bits.length ≤ 3)

theorem regwr (off : BitVec 6) (v : Word) : Statement (.regwr off v) := .inl ⟨rfl, rfl⟩
theorem regrd (off : BitVec 6) (data : Word) : Statement (.regrd off data) := .inl ⟨rfl, rfl⟩
theorem start (rest : BitVec 30) (irqEn : Bool) : Statement (.start rest irqEn) := .inl ⟨rfl, rfl⟩
theorem ack (v : Word) : Statement (.ack v) := .inl ⟨rfl, rfl⟩
theorem skip : Statement .skip := .inr ⟨rfl, _, rfl, by decide, by decide⟩
theorem flat : Statement .flat := .inr ⟨rfl, _, rfl, by decide, by decide⟩
theorem quad : Statement .quad := .inr ⟨rfl, _, rfl, by decide, by decide⟩
theorem splitx : Statement .splitx := .inr ⟨rfl, _, rfl, by decide, by decide⟩
theorem splity : Statement .splity := .inr ⟨rfl, _, rfl, by decide, by decide⟩
theorem deep : Statement .deep := .inr ⟨rfl, _, rfl, by decide, by decide⟩
theorem leaf : Statement .leaf := .inr ⟨rfl, _, rfl, by decide, by decide⟩
theorem hit : Statement .hit := .inr ⟨rfl, _, rfl, by decide, by decide⟩
theorem miss : Statement .miss := .inr ⟨rfl, _, rfl, by decide, by decide⟩

end Sys2Proof.Laws.OneEncoding
end

