-- ==== Sys2Proof/Laws/Words.lean ====
section
/-! SUPPORT. The three parts of a host access, taken apart and put together (R104). -/

namespace Sys2Proof

theorem hostWord_getLsbD (rw : Bool) (off : BitVec 6) (data : Word) (i : Nat) :
    (hostWord rw off data).getLsbD i =
      if i < 32 then data.getLsbD i else if i < 38 then off.getLsbD (i - 32) else (decide (i = 38) && rw) := by
  have h : (hostWord rw off data).getLsbD i = (BitVec.ofBool rw ++ off ++ data : BitVec (1 + 6 + 32)).getLsbD i := rfl
  rw [h, BitVec.getLsbD_append, BitVec.getLsbD_append]
  by_cases h1 : i < 32
  · simp [h1]
  · by_cases h2 : i < 38
    · simp [h1, h2, show i - 32 < 6 by omega]
    · by_cases h3 : i = 38
      · subst h3; simp
      · simp [h1, h2, h3, show ¬i - 32 < 6 by omega, show ¬i - 32 - 6 = 0 by omega]

@[simp] theorem hostRw_hostWord (rw : Bool) (off : BitVec 6) (data : Word) : hostRw (hostWord rw off data) = rw := by
  rw [hostRw, hostWord_getLsbD]; simp

@[simp] theorem hostOffset_hostWord (rw : Bool) (off : BitVec 6) (data : Word) :
    hostOffset (hostWord rw off data) = off := by
  apply BitVec.eq_of_getLsbD_eq
  intro i hi
  rw [hostOffset, BitVec.getLsbD_extractLsb', hostWord_getLsbD]
  simp [hi, show 32 + i < 38 by omega]

@[simp] theorem hostData_hostWord (rw : Bool) (off : BitVec 6) (data : Word) :
    hostData (hostWord rw off data) = data := by
  apply BitVec.eq_of_getLsbD_eq
  intro i hi
  rw [hostData, BitVec.getLsbD_extractLsb', hostWord_getLsbD]
  simp [hi]

/-- An access is its three parts. -/
theorem hostWord_parts (w : BitVec 39) : hostWord (hostRw w) (hostOffset w) (hostData w) = w := by
  apply BitVec.eq_of_getLsbD_eq
  intro i hi
  rw [hostWord_getLsbD, hostRw, hostOffset, hostData, BitVec.getLsbD_extractLsb', BitVec.getLsbD_extractLsb']
  by_cases h1 : i < 32
  · simp [h1]
  · by_cases h2 : i < 38
    · simp [h1, h2, show i - 32 < 6 by omega, show 32 + (i - 32) = i by omega]
    · obtain rfl : i = 38 := by omega
      simp

/-- The bits of a CTRL write that is a START (R132). -/
theorem startData_getLsbD (rest : BitVec 30) (e : Bool) (i : Nat) :
    (rest ++ BitVec.ofBool e ++ 1#1 : Word).getLsbD i =
      if i = 0 then true else if i = 1 then e else rest.getLsbD (i - 2) := by
  have h : (rest ++ BitVec.ofBool e ++ 1#1 : Word).getLsbD i =
      (rest ++ BitVec.ofBool e ++ 1#1 : BitVec (30 + 1 + 1)).getLsbD i := rfl
  rw [h, BitVec.getLsbD_append, BitVec.getLsbD_append]
  rcases i with _ | _ | i
  · simp
  · simp
  · simp

/-- A CTRL write with bit 0 set is a START's (R132). -/
theorem startData_parts (v : Word) (h : v.getLsbD 0 = true) :
    (v.extractLsb' 2 30 ++ BitVec.ofBool (v.getLsbD 1) ++ 1#1 : Word) = v := by
  apply BitVec.eq_of_getLsbD_eq
  intro i hi
  rw [startData_getLsbD, BitVec.getLsbD_extractLsb']
  rcases i with _ | _ | i
  · simpa using h.symm
  · simp
  · simp [show i < 30 by omega, show 2 + i = i + 1 + 1 by omega]

theorem startData_rest (rest : BitVec 30) (e : Bool) :
    (rest ++ BitVec.ofBool e ++ 1#1 : Word).extractLsb' 2 30 = rest := by
  apply BitVec.eq_of_getLsbD_eq
  intro i hi
  rw [BitVec.getLsbD_extractLsb', startData_getLsbD]
  simp [hi, show 2 + i ≠ 1 by omega]

end Sys2Proof
end

