-- ==== Sys2Proof/Tests/Slice0.lean ====
section
/-! SUPPORT. Small tests, their expected values from 95_test_vectors.md and the rules' examples, and the witnesses of the
statements' hypotheses. -/

namespace Sys2Proof.Tests

open Sys2Proof.Machine

/-! ### WellFormed: an ill-formed term for each check -/

theorem test_wf_refuses_regwr_that_is_start : Instr.wf (.regwr 0x00 1) = false := by decide
theorem test_wf_refuses_regwr_that_is_ack : Instr.wf (.regwr 0x04 6) = false := by decide
theorem test_unaligned_offset_is_refused : alignedOffset 0x09 = false := by decide
theorem test_ctx_refuses_skip_without_reference : SymCtx.admits ⟨false, true, true, true, true⟩ .skip = false := by decide
theorem test_ctx_refuses_deep_below_the_ceiling : SymCtx.admits ⟨true, true, false, true, true⟩ .deep = false := by decide
theorem test_ctx_refuses_quad_at_the_ceiling : SymCtx.admits ⟨true, true, true, true, true⟩ .quad = false := by decide
theorem test_ctx_refuses_splitx_of_a_quad : SymCtx.admits ⟨true, true, false, true, true⟩ .splitx = false := by decide
theorem test_ctx_refuses_splity_of_a_wide_node : SymCtx.admits ⟨true, true, false, true, false⟩ .splity = false := by decide
theorem test_ctx_refuses_leaf_with_a_cache : SymCtx.admits ⟨true, true, false, false, false⟩ .leaf = false := by decide
theorem test_ctx_refuses_hit_without_a_cache : SymCtx.admits ⟨true, false, false, false, false⟩ .hit = false := by decide
theorem test_ctx_refuses_a_host_operation : SymCtx.admits ⟨true, true, true, true, true⟩ (.ack 6) = false := by decide

/-! ### Decoding: words written out from the encodings (R104, R105; 95_test_vectors.md L3) -/

/-- rw = 1, offset 001000, data 4 (L3-P1 line 1). -/
theorem test_decode_regwr : decodeHost (0b1#1 ++ 0b001000#6 ++ 4#32) = .regwr 0x08 4 := by decide
/-- rw = 0, offset 000100 (L3-P1 line 10). -/
theorem test_decode_regrd : decodeTableWord 39 0x0400000000 = some (.regrd 0x04 0) := by decide
/-- WR 0x00, 0x3 (L3-P1 line 8): START with IRQ_EN. -/
theorem test_decode_start : decodeTableWord 40 0x4000000003 = some (.start 0 true) := by decide
/-- WR 0x04, 0x6 (L3-P1 line 14). -/
theorem test_decode_ack : decodeTableWord 40 0x4400000006 = some (.ack 6) := by decide
/-- WR 0x00, 0x2 is no START (H10). -/
theorem test_decode_ctrl_write : decodeHost 0x4000000002#39 = .regwr 0x00 2 := by decide
/-- Command bit 0 with ref_en = 1 is SKIP, whatever the geometry (R105). -/
theorem test_decode_skip : decodeSymbol ⟨true, true, true, true, true⟩ [false] = .ok (.skip, []) := by rfl
theorem test_decode_flat_with_reference : decodeSymbol ⟨true, true, true, true, true⟩ [true, true] = .ok (.flat, []) := by rfl
theorem test_decode_flat : decodeTableWord 8 1 = some .flat := by decide
theorem test_decode_deep : decodeTableWord 8 0 = some .deep := by decide
theorem test_decode_quad : decodeSymbol ⟨false, true, false, true, true⟩ [false] = .ok (.quad, []) := by rfl
theorem test_decode_splitx : decodeSymbol ⟨true, true, false, true, false⟩ [true, false] = .ok (.splitx, []) := by rfl
theorem test_decode_splity : decodeSymbol ⟨false, true, false, false, true⟩ [false] = .ok (.splity, []) := by rfl
theorem test_decode_leaf : decodeSymbol ⟨true, false, false, false, false⟩ [true, false] = .ok (.leaf, []) := by rfl
theorem test_decode_hit : decodeSymbol ⟨false, true, false, false, false⟩ [false, false] = .ok (.hit, []) := by rfl
theorem test_decode_miss : decodeSymbol ⟨true, true, false, false, false⟩ [true, false, true] = .ok (.miss, []) := by rfl
theorem test_decode_truncated_symbol :
    decodeSymbol ⟨true, true, false, false, false⟩ [true, false] = .error .streamExhausted := by rfl
theorem test_decode_rejects_three_bytes : decodeBytes [0, 0, 0] = .error .badLength := by rfl
theorem test_decode_rejects_bit_39 : decodeBytes [0, 0, 0, 0, 0x80] = .error .padBitSet := by rfl
theorem test_decode_rejects_excess_bits : decodeBytes [2] = .error .excessBits := by rfl

/-! ### A small state -/

/-- The next state of an outcome. -/
def nextOf : Host.Outcome State Fault Refusal → Option State
  | .next t => some t
  | .fault _ | .refused _ => none

/-- The default configuration of the vectors: 4×4, M = 1, MAXDEPTH = 4, images at 0x1000 and 0x2000. -/
def vecCfg : RunCfg := { RunCfg.reset with W := 4, H := 4, M := 1, maxdepth := 4, imgBase := 0x1000, refBase := 0x2000 }

/-- A run about to step the node `fr` under `c` in the FULL pass, over a memory. -/
def nodeState (c : RunCfg) (fr : Frame) (mem : Memory) : State := { State.reset.primeNode c fr with mem := mem }

/-- Configuration registers for `c`, idle. -/
def idleState (c : RunCfg) : State :=
  { State.reset with regs := { (Regs.reset.ofCfg c) with busy := false, keyframe := false } }

/-- A run that waits for the cache with the 2×2 key of R208's example, INDEXBITS = 4 (L2-S9). -/
def key9 : Key := ⟨.full, 2, 2, [1, 0, 0, 2, 0, 0, 3, 0, 0, 4, 0, 0]⟩
def waitState (slots : List (Nat × Key)) (failing : List Key) (indexbits : Nat) : State :=
  { State.reset with
    regs := { Regs.reset with busy := true, keyframe := true }
    cfg := { vecCfg with W := 4, H := 2, M := 2, cacheEn := true, indexbits := indexbits }
    phase := .cacheWait, passes := [.full], cache := ⟨slots, failing, 0⟩
    pending := some ⟨⟨0, 0, 2, 2, 1⟩, [.cmd false], .full, key9⟩ }

/-! ### Host operations -/

/-- H3: WR 0x08, 0xFFFF0004 leaves 4. -/
theorem test_regwr_drops_reserved_bits :
    (nextOf (exec (.regwr 0x08 0xFFFF0004) State.reset)).map (fun t => t.regs.read .width) = some 4 := by decide
/-- H6: WR 0x1C, 0xFFFFFFFF reads 0x3F1F. -/
theorem test_regwr_mode_fields :
    (nextOf (exec (.regwr 0x1C 0xFFFFFFFF) State.reset)).map (fun t => t.regs.read .mode) = some 0x3F1F := by decide
/-- H12's STATUS: KEYFRAME and DONE read 0x00010002. -/
theorem test_regrd_status :
    (nextOf (exec (.regrd 0x04 0) { State.reset with regs := { Regs.reset with done := true, keyframe := true } })).map
      (fun t => t.host.rdata) = some 0x00010002 := by decide
/-- H21: an unaligned read returns 0. -/
theorem test_regrd_unaligned :
    (nextOf (exec (.regrd 0x09 0) { State.reset with regs := { Regs.reset with width := 7 } })).map
      (fun t => t.host.rdata) = some 0 := by decide
/-- R132's example: the root on the stack, BUSY and KEYFRAME. -/
theorem test_start_runs :
    (nextOf (exec (.start 0 false) (idleState vecCfg))).map (fun t => (t.regs.read .status, t.stack)) =
      some (0x00010001, [⟨0, 0, 4, 4, 0⟩]) := by decide
/-- C-5: M = 4 on a 4×4 image is E_CFG_MINDIM. -/
theorem test_start_mindim :
    (nextOf (exec (.start 0 false) (idleState { vecCfg with M := 4 }))).map (fun t => t.regs.read .status) =
      some 0x00010304 := by decide
/-- H13: ACK of a fault clears ERRCODE and FAULT_ADDR. -/
theorem test_ack_fault :
    (nextOf (exec (.ack 4) { State.reset with
      regs := { Regs.reset with fault := true, errcode := 8, faultAddr := 0x102C, keyframe := true } })).map
      (fun t => (t.regs.read .status, t.regs.read .faultAddr)) = some (0x00010000, 0) := by decide
/-- H14: bit 1 alone does not clear FAULT. -/
theorem test_ack_done_only :
    (nextOf (exec (.ack 2) { State.reset with regs := { Regs.reset with fault := true, errcode := 1 } })).map
      (fun t => t.regs.read .status) = some 0x104 := by decide

/-! ### Configuration checks and geometry -/

/-- C-10, C-13, C-14: the stack limit and the top of the address space. -/
theorem test_config_depth :
    configCheck { Build.reference with maxHwDepth := 8 } { vecCfg with W := 512, H := 512, maxdepth := 255 } =
      some .cfgDepth := by decide
theorem test_config_addr_wraps :
    configCheck Build.reference { vecCfg with imgBase := 0xFFFFFFF0 } = some .cfgAddr ∧
    configCheck Build.reference { vecCfg with imgBase := 0xFFFFFFC0 } = none := by decide
/-- The table of `k` (L2-C). -/
theorem test_k_table : (kDepth 1 5, kDepth 1 9, kDepth 2 5, kDepth 3 16) = (3, 4, 2, 3) := by decide
/-- L2-G: (0,0,5,3) splits at xm = 2, ym = 1. -/
theorem test_quad_odd : quadChildren ⟨0, 0, 5, 3, 0⟩ =
    [⟨0, 0, 2, 1, 1⟩, ⟨0, 1, 2, 3, 1⟩, ⟨2, 0, 5, 1, 1⟩, ⟨2, 1, 5, 3, 1⟩] := by decide

/-! ### Node symbols -/

/-- L2-S1: an image equal to its reference. -/
theorem test_skip :
    (nextOf (exec .skip (nodeState { vecCfg with refEn := true, W := 1, H := 2 } ⟨0, 0, 1, 2, 0⟩
      [(0x1000, 5), (0x2000, 5), (0x2003, 9)]))).map (fun t => (t.queue, t.stack)) = some ([.cmd false], []) := by decide
/-- R153's example: (5,5,5,0) and (5,5,5,200) are flat; one payload. -/
theorem test_flat_ignores_a :
    (nextOf (exec .flat (nodeState { vecCfg with W := 2, H := 1 } ⟨0, 0, 2, 1, 0⟩
      [(0x1000, 5), (0x1001, 5), (0x1002, 5), (0x1004, 5), (0x1005, 5), (0x1006, 5), (0x1007, 200)]))).map
      (fun t => t.queue) = some [.cmd true, .pix 5, .pix 5, .pix 5] := by decide
/-- T-FLAT-3's bits: FLAT with a differing reference is 1 1. -/
theorem test_flat_with_reference :
    (nextOf (exec .flat (nodeState { vecCfg with refEn := true, bgra := true } ⟨0, 0, 1, 1, 1⟩ [(0x1000, 7)]))).map
      (fun t => t.queue) = some [.cmd true, .cmd true, .pix 0, .pix 0, .pix 7] := by decide
/-- R202's example: the children of the 4×4 root, top-left on top. -/
theorem test_quad :
    (nextOf (exec .quad (nodeState vecCfg ⟨0, 0, 4, 4, 0⟩ [(0x1000, 1)]))).map (fun t => (t.queue, t.stack)) =
      some ([.cmd false], [⟨0, 0, 2, 2, 1⟩, ⟨0, 2, 2, 4, 1⟩, ⟨2, 0, 4, 2, 1⟩, ⟨2, 2, 4, 4, 1⟩]) := by decide
/-- R-2: a lazy QUAD reads nothing, so an erring address does not matter. -/
theorem test_quad_lazy_reads_nothing :
    (nextOf (exec .quad { nodeState { vecCfg with lazy := 1 } ⟨0, 0, 4, 4, 0⟩ [] with
      build := { Build.reference with memErr := [0x1016] } })).map (fun t => (t.queue, t.regs.fault)) =
      some ([.cmd false], false) := by decide
/-- R203's example: 4×2 with M = 2. -/
theorem test_splitx :
    (nextOf (exec .splitx (nodeState { vecCfg with H := 2, M := 2 } ⟨0, 0, 4, 2, 0⟩ [(0x1000, 1)]))).map
      (fun t => (t.queue, t.stack)) = some ([.cmd false], [⟨0, 0, 2, 2, 1⟩, ⟨2, 0, 4, 2, 1⟩]) := by decide
/-- R204's example: 1×3 with M = 1. -/
theorem test_splity :
    (nextOf (exec .splity (nodeState { vecCfg with W := 1, H := 3 } ⟨0, 0, 1, 3, 0⟩ [(0x1000, 1)]))).map
      (fun t => (t.queue, t.stack)) = some ([.cmd false], [⟨0, 0, 1, 1, 1⟩, ⟨0, 1, 1, 3, 1⟩]) := by decide
/-- L2-S8: 2×1 (1,2,3), (4,5,6) with BGRA = 1. -/
theorem test_deep_bgra :
    (nextOf (exec .deep (nodeState { vecCfg with W := 2, H := 1, maxdepth := 0, bgra := true } ⟨0, 0, 2, 1, 0⟩
      [(0x1000, 1), (0x1001, 2), (0x1002, 3), (0x1004, 4), (0x1005, 5), (0x1006, 6)]))).map (fun t => t.queue) =
      some [.cmd false, .pix 3, .pix 2, .pix 1, .pix 6, .pix 5, .pix 4] := by decide
/-- L2-S12: a lazy 1×1 node with M = 1 is a LEAF. -/
theorem test_leaf_lazy :
    (nextOf (exec .leaf (nodeState { vecCfg with W := 1, H := 2, lazy := 2, maxdepth := 3 } ⟨0, 1, 1, 2, 1⟩
      [(0x1004, 7), (0x1005, 7), (0x1006, 7)]))).map (fun t => t.queue) =
      some [.cmd false, .pix 7, .pix 7, .pix 7] := by decide
/-- R207's example: the key at slot 3, INDEXBITS = 4. -/
theorem test_hit :
    (nextOf (exec .hit (waitState [(1, ⟨.full, 1, 1, []⟩), (3, key9)] [] 4))).map (fun t => t.queue) =
      some [.cmd false, .cmd false, .idx 3] := by decide
/-- R-5: HIT(5) with INDEXBITS = 2 faults with code 9. -/
theorem test_hit_index_too_large :
    (nextOf (exec .hit (waitState [(5, key9)] [] 2))).map (fun t => (t.queue, t.regs.read .status)) =
      some ([], 0x00010904) := by decide
/-- R208's example: the first 2×2 block of an empty cache. -/
theorem test_miss :
    (nextOf (exec .miss (waitState [] [] 4))).map (fun t => t.queue) =
      some ([.cmd false, .cmd true] ++ pixTokens [1, 0, 0, 2, 0, 0, 3, 0, 0, 4, 0, 0]) := by decide
/-- R-6: ERROR faults with code 9. -/
theorem test_miss_error :
    (nextOf (exec .miss (waitState [] [key9] 4))).map (fun t => (t.queue, t.regs.read .status)) =
      some ([], 0x00010904) := by decide
/-- R-1: an erring byte of pixel (1,1) faults at its pixel's address. -/
theorem test_read_error :
    (nextOf (exec .flat { nodeState vecCfg ⟨0, 0, 4, 4, 0⟩ [] with
      build := { Build.reference with memErr := [0x1016] } })).map (fun t => (t.regs.read .status, t.regs.read .faultAddr)) =
      some (0x00010804, 0x1014) := by decide
/-- R-3: the reference's pixels come after the image's. -/
theorem test_read_error_in_reference :
    (nextOf (exec .skip { nodeState { vecCfg with refEn := true } ⟨0, 0, 4, 4, 0⟩ [] with
      build := { Build.reference with memErr := [0x2000] } })).map (fun t => (t.regs.read .status, t.regs.read .faultAddr)) =
      some (0x00000804, 0x2000) := by decide

/-! ### Where the host's words run -/

theorem test_placed_start_runs :
    (nextOf (step (State.reset.withFetchWord 40 0x4000000001))).map (fun t => t.regs.read .status) = some 0x00010104 := by
  decide
theorem test_placed_flat_runs :
    (nextOf (step (State.reset.withFetchWord 8 1))).map (fun t => t.queue) = some [.cmd true, .pix 0, .pix 0, .pix 0] := by
  decide
theorem test_placed_symbols_are_selected :
    ([Instr.skip, .flat, .quad, .splitx, .splity, .deep, .leaf, .hit, .miss].map fun i =>
      (State.reset.primeSymbol i).nextSymbol == some i) = List.replicate 9 true := by decide

/-! ### Memory written during a run -/

/-- R325, R75: writing the byte `a` of the pixel at 0 alone makes reads of that pixel unspecified, and of no other. -/
theorem test_write_during_a_run_affects_its_pixel :
    (nextOf (step { State.reset.primeSymbol .quad with schedule := [.memWrite 3 5] })).map
      (fun t => (t.affected 0, t.affected 4)) = some (true, false) := by decide

/-! ### The recursive definition and the reference decoder -/

/-- A triple of the vectors. -/
def px (r g b : Byte) : Pixel := ⟨r, g, b, 0⟩

/-- The cache fixture RC of D41 with room for `cap` keys. -/
def rc (cap : Nat) : CacheModel (List Key) :=
  { holds := fun s i => s[i]?
    lookup := fun s k => if k ∈ s then (s, .hit (s.idxOf k)) else (if s.length < cap then s ++ [k] else s, .inserted)
    add := fun s k => if s.length < cap then s ++ [k] else s
    touch := fun s _ => s }

/-- L2-S9: MISS then HIT. -/
def cfg9 : RunCfg := { vecCfg with W := 4, H := 2, M := 2, cacheEn := true, indexbits := 4 }
def img9 : Image := fun x y =>
  match x % 2, y with
  | 0, 0 => px 1 0 0
  | _, 0 => px 2 0 0
  | 0, _ => px 3 0 0
  | _, _ => px 4 0 0

theorem test_encode_miss_then_hit :
    (encodeRun (rc 16) cfg9 img9 img9 []).map (fun r => streamsOf 4 r.1) =
      some ⟨[false, false, true, false, false], [⟨0, 4⟩], key9.bytes⟩ := by decide
/-- L2-S14: LUMA then CHROMA with BGRA = 1. -/
theorem test_encode_two_passes :
    (encodeRun (rc 0) { vecCfg with W := 2, H := 1, maxdepth := 1, colordiff := 2, bgra := true }
      (fun x _ => if x = 0 then px 10 50 20 else px 11 50 21) img9 []).map (fun r => streamsOf 0 r.1) =
      some ⟨[true, false, true, true], [], [0x32, 0x14, 0x0A, 0x15, 0x0B]⟩ := by decide

/-- What a decode gave: 0 for Ok, 1 for Fail, 2 for Undefined. -/
def outcomeOf {C : Type} : DecResult C → Nat
  | .ok _ => 0
  | .fail _ => 1
  | .undef _ => 2

/-- D-1, D-3, D-4. -/
theorem test_decode_fail : outcomeOf (decode (rc 0) vecCfg.toDec ⟨[], [], []⟩ none []) = 1 := by decide
theorem test_decode_trailing :
    outcomeOf (decode (rc 0) vecCfg.toDec ⟨[true, false, true], [], [0xFF, 0xFF, 0xFF, 7]⟩ none []) = 0 := by decide
theorem test_decode_undefined :
    outcomeOf (decode (rc 16) cfg9.toDec ⟨[false, false, false, false, false], [⟨0, 4⟩, ⟨1, 4⟩], []⟩ none []) = 2 := by decide

end Sys2Proof.Tests
end

