-- ==== Sys2Proof/Tests/Witnesses.lean ====
section
/-! SUPPORT. For each statement with hypotheses, a concrete state and operands that meet all of them together, clause by clause. -/

namespace Sys2Proof.Tests

open Sys2Proof.Machine

/-! ### Encoding and the step -/

theorem witness_DecodeOfEncodeIsIdentity :
    Instr.wf (.regwr 0x3C 0xFFFFFFFF) = true ∧ encodeHost (.regwr 0x3C 0xFFFFFFFF) = some 0x7CFFFFFFFF#39 ∧
    Instr.wf .hit = true ∧ SymCtx.admits ⟨true, true, false, false, false⟩ .hit = true ∧
    encodeSymbol true .hit = some [true, false, false] := by decide

theorem witness_DecodedSymbolIsAdmittedByItsContext :
    decodeSymbol ⟨false, true, false, false, false⟩ [false, true, false] = .ok (.miss, [false]) := by rfl

theorem witness_SymbolDecodingFailsOnlyOnExhaustion :
    decodeSymbol ⟨true, true, false, false, false⟩ [true, false] = .error .streamExhausted := by rfl

theorem witness_StepRunsTheDecodedAccess :
    ({ State.reset with schedule := [.access 0x4000000001#39, .own] } : State).schedule =
      .access 0x4000000001#39 :: [.own] := rfl

/-- A lazy QUAD at the root of a 2×2 image, a CACHED node, an answered request, and an `own` event. -/
theorem witness_StepRunsTheSelectedSymbol :
    (let s := State.reset.primeSymbol .quad
     s.schedule = [] ∧ s.phase = .active ∧ s.queue = [] ∧ s.passes.head? = some .full ∧ s.stack = [⟨0, 0, 2, 2, 0⟩] ∧
       (s.classOf .full ⟨0, 0, 2, 2, 0⟩).symbol = some .quad) ∧
    (let s := State.reset.primeNode (primeCfg .hit) (primeFrame .hit)
     s.schedule = [] ∧ s.phase = .active ∧ s.queue = [] ∧ s.passes.head? = some .full ∧ s.stack = [⟨0, 0, 1, 1, 1⟩] ∧
       s.classOf .full ⟨0, 0, 1, 1, 1⟩ = .cached) ∧
    (let s := State.reset.primeSymbol .hit
     s.schedule = [] ∧ s.phase = .cacheWait ∧ s.pending.isSome = true ∧ s.cacheReady = true) ∧
    ({ State.reset with schedule := [.own, .reset] } : State).schedule = .own :: [.reset] := by decide

/-! ### Host operations -/

/-- Every configuration register, at its offset. -/
theorem witness_RegwrStoresTheFieldBits :
    State.reset.regs.busy = false ∧
    ∀ c ∈ [(0x08#6, Reg.width), (0x0C#6, .height), (0x10#6, .minsize), (0x14#6, .maxdepth), (0x18#6, .lazyness),
      (0x1C#6, .mode), (0x20#6, .transform), (0x24#6, .imgBase), (0x28#6, .refBase)],
      regAt c.1 = some c.2 ∧ c.2.isConfig = true := by decide

theorem witness_RegwrIgnoredWrites :
    (regAt 0x28#6 = some .refBase ∧ Reg.refBase.isConfig = true ∧ (State.reset.primeSymbol .flat).regs.busy = true) ∧
    (∀ c ∈ [(0x2C#6, Reg.cmdBits), (0x30#6, .idxCount), (0x34#6, .pixBytes), (0x38#6, .faultAddr), (0x3C#6, .reserved)],
      regAt c.1 = some c.2 ∧ c.2.ignoresWrites = true) := by decide

theorem witness_RegwrCtrlAndStatus :
    (0xFFFFFFFE#32).getLsbD 0 = false ∧ (0x00000001#32).getLsbD 0 = true := by decide

/-- The offsets next to the first and last aligned ones, and the two accesses of another width. -/
theorem witness_IllegalAccessIsRefused :
    (alignedOffset 0x01 = false ∧ alignedOffset 0x3B = false ∧ alignedOffset 0x3F = false) ∧
    ({ State.reset with schedule := [.oddWidthAccess true] } : State).schedule = .oddWidthAccess true :: [] ∧
    ({ State.reset with schedule := [.oddWidthAccess false] } : State).schedule = .oddWidthAccess false :: [] := by decide

theorem witness_RegrdReturnsTheRegister :
    alignedOffset 0x00 = true ∧ alignedOffset 0x3C = true ∧ alignedOffset 0x3E = false := by decide

theorem witness_StartWhileBusyOnlyWritesIrqEn : (State.reset.primeSymbol .flat).regs.busy = true := by decide

theorem witness_StartBeginsARun :
    (idleState vecCfg).regs.busy = false ∧ configCheck (idleState vecCfg).build (idleState vecCfg).regs.toCfg = none := by
  decide

theorem witness_StartFaultsOnABadConfiguration :
    State.reset.regs.busy = false ∧ configCheck State.reset.build State.reset.regs.toCfg = some .cfgArea := by decide

theorem witness_DepthFunctionMeetsItsEquation : 1 ≤ 1 ∧ (5 : Nat) < 2 ^ 31 := by decide

theorem witness_ResetRestoresTheBlock :
    ({ State.reset.primeSymbol .hit with schedule := [.reset] } : State).schedule = .reset :: [] := rfl

theorem witness_IdleTakesNoStep : State.reset.schedule = [] ∧ State.reset.phase = .idle := by decide

/-! ### Node symbols -/

/-- The node of a primed run is ready: its one frame is stepped and no address errs. -/
theorem primeNode_ready (c : RunCfg) (fr : Frame) : NodeReady (State.reset.primeNode c fr) .full fr [] where
  phase := rfl
  queue := rfl
  pass := rfl
  stack := rfl
  reads := fun a _ => by simp [State.primeNode, State.reset, Build.reference, Build.errs]

/-- A non-lazy 2×1 node whose two pixels differ. -/
def unequal (c : RunCfg) : State :=
  { State.reset.primeNode { c with lazy := 0 } ⟨0, 0, 2, 1, 1⟩ with mem := [(0, 1)] }

theorem unequal_ready (c : RunCfg) : NodeReady (unequal c) .full ⟨0, 0, 2, 1, 1⟩ [] where
  phase := rfl
  queue := rfl
  pass := rfl
  stack := rfl
  reads := fun a _ => by simp [unequal, State.primeNode, State.reset, Build.reference, Build.errs]

theorem witness_SkipReusesTheReference :
    let s := State.reset.primeSymbol .skip
    NodeReady s .full ⟨0, 0, 1, 1, 1⟩ [] ∧ s.cfg.refEn = true ∧ s.cfg.lazy ≤ 1 ∧
      AgreeOn s.P s.Q ⟨0, 0, 1, 1, 1⟩ (maskOf .full) :=
  ⟨primeNode_ready _ _, rfl, by decide, fun _ _ _ _ _ _ _ _ => rfl⟩

theorem witness_FlatEmitsTheTopLeftPixel :
    let s := State.reset.primeSymbol .flat
    NodeReady s .full ⟨0, 0, 1, 1, 1⟩ [] ∧ SelectsFlat s.cfg s.P s.Q ⟨0, 0, 1, 1, 1⟩ .full := by
  refine ⟨primeNode_ready _ _, by decide, by simp [State.primeSymbol, State.primeNode, primeCfg, RunCfg.reset], ?_⟩
  intro x y _ hx _ hy c _
  obtain rfl : x = 0 := by simpa using hx
  obtain rfl : y = 0 := by simpa using hy
  rfl

/-- Lazy roots at the sizes that split each way. -/
theorem witness_SplitsPushTheirChildren :
    (let s := State.reset.primeSymbol .quad
     NodeReady s .full ⟨0, 0, 2, 2, 0⟩ [] ∧ SelectsNonFlat s.cfg s.P s.Q ⟨0, 0, 2, 2, 0⟩ .full ∧ 0 ≠ s.cfg.maxdepth ∧
       s.cfg.M < 2 - 0) ∧
    (let s := State.reset.primeSymbol .splitx
     NodeReady s .full ⟨0, 0, 2, 1, 0⟩ [] ∧ SelectsNonFlat s.cfg s.P s.Q ⟨0, 0, 2, 1, 0⟩ .full ∧ 0 ≠ s.cfg.maxdepth ∧
       s.cfg.M < 2 - 0 ∧ 1 - 0 ≤ s.cfg.M) ∧
    (let s := State.reset.primeSymbol .splity
     NodeReady s .full ⟨0, 0, 1, 2, 0⟩ [] ∧ SelectsNonFlat s.cfg s.P s.Q ⟨0, 0, 1, 2, 0⟩ .full ∧ 0 ≠ s.cfg.maxdepth ∧
       1 - 0 ≤ s.cfg.M ∧ s.cfg.M < 2 - 0) :=
  ⟨⟨primeNode_ready _ _, .inl (by decide), by decide, by decide⟩,
   ⟨primeNode_ready _ _, .inl (by decide), by decide, by decide, by decide⟩,
   ⟨primeNode_ready _ _, .inl (by decide), by decide, by decide, by decide⟩⟩

/-- A node that is not flat without being lazy. -/
theorem unequal_nonFlat (c : RunCfg) (hr : c.refEn = false) (hw : c.W = 2) (hb : c.imgBase = 0) :
    SelectsNonFlat (unequal c).cfg (unequal c).P (unequal c).Q ⟨0, 0, 2, 1, 1⟩ .full := by
  refine .inr ⟨by simp [unequal, State.primeNode, hr], fun h => ?_⟩
  have h1 := h 1 0 (by decide) (by decide) (by decide) (by decide) .x (by decide)
  simp [unequal, State.primeNode, State.P, State.pixelAt, State.affected, pixelBytes, fourBytes, pixelAddr, hw, hb, Pixel.get, State.reset,
    Build.reference, Memory.read, unlistedByte] at h1

theorem witness_RawLeavesEmitTheRegion :
    (let s := unequal (primeCfg .flat)
     NodeReady s .full ⟨0, 0, 2, 1, 1⟩ [] ∧ SelectsNonFlat s.cfg s.P s.Q ⟨0, 0, 2, 1, 1⟩ .full ∧ 1 = s.cfg.maxdepth) ∧
    (let s := unequal { primeCfg .flat with maxdepth := 2, M := 2 }
     NodeReady s .full ⟨0, 0, 2, 1, 1⟩ [] ∧ SelectsNonFlat s.cfg s.P s.Q ⟨0, 0, 2, 1, 1⟩ .full ∧ 1 ≠ s.cfg.maxdepth ∧
       2 - 0 ≤ s.cfg.M ∧ 1 - 0 ≤ s.cfg.M ∧ s.cfg.cacheEn = false) :=
  ⟨⟨unequal_ready _, unequal_nonFlat _ rfl rfl rfl, rfl⟩,
   ⟨unequal_ready _, unequal_nonFlat _ rfl rfl rfl, by decide, by decide, by decide, rfl⟩⟩

theorem witness_MinimumLeafAsksTheCache :
    let s := unequal { primeCfg .flat with maxdepth := 2, M := 2, cacheEn := true }
    NodeReady s .full ⟨0, 0, 2, 1, 1⟩ [] ∧ SelectsNonFlat s.cfg s.P s.Q ⟨0, 0, 2, 1, 1⟩ .full ∧ s.schedule = [] ∧
      1 ≠ s.cfg.maxdepth ∧ 2 - 0 ≤ s.cfg.M ∧ 1 - 0 ≤ s.cfg.M ∧ s.cfg.cacheEn = true :=
  ⟨unequal_ready _, unequal_nonFlat _ rfl rfl rfl, rfl, by decide, by decide, by decide, rfl⟩

/-- The largest index that fits, 15 with INDEXBITS = 4. -/
theorem witness_HitEmitsTheIndex :
    let s := waitState [(15, key9)] [] 4
    s.phase = .cacheWait ∧ (s.pending.map fun pd => pd.key) = some key9 ∧
      platformCache.lookup s.cache key9 = (Config.cacheTouch s.cache 15, .hit 15) ∧ 15 < 2 ^ s.cfg.indexbits :=
  ⟨rfl, rfl, rfl, by decide⟩

theorem witness_MissEmitsThePayload :
    let s := waitState [(0, ⟨.full, 1, 4, key9.bytes⟩)] [] 4
    s.phase = .cacheWait ∧ (s.pending.map fun pd => pd.key) = some key9 ∧
      platformCache.lookup s.cache key9 = (Config.cacheAdd s.cache key9, .inserted) :=
  ⟨rfl, rfl, rfl⟩

/-- ERROR, and the smallest index that does not fit, 16 with INDEXBITS = 4. -/
theorem witness_BadCacheAnswerFaults :
    (let s := waitState [] [key9] 4
     s.phase = .cacheWait ∧ (s.pending.map fun pd => pd.key) = some key9 ∧
       platformCache.lookup s.cache key9 = (Config.cacheAfterError s.cache key9, .error)) ∧
    (let s := waitState [(16, key9)] [] 4
     s.phase = .cacheWait ∧ (s.pending.map fun pd => pd.key) = some key9 ∧
       platformCache.lookup s.cache key9 = (Config.cacheTouch s.cache 16, .hit 16) ∧ 2 ^ s.cfg.indexbits ≤ 16) :=
  ⟨⟨rfl, rfl, rfl⟩, ⟨rfl, rfl, rfl, by decide⟩⟩

/-- R-1: the root's read set, its fifth and sixth pixels, the sixth erring. -/
theorem witness_ReadErrorFaults :
    let s : State := { nodeState vecCfg ⟨0, 0, 4, 4, 0⟩ [] with build := { Build.reference with memErr := [0x1016] } }
    s.phase = .active ∧ s.queue = [] ∧ s.passes.head? = some .full ∧ s.stack = [⟨0, 0, 4, 4, 0⟩] ∧
      s.readSet ⟨0, 0, 4, 4, 0⟩ = (List.range 5).map (fun i => 0x1000 + 4 * i) ++ 0x1014 ::
        (List.range 10).map (fun i => 0x1018 + 4 * i) ∧
      (∀ b ∈ (List.range 5).map (fun i => 0x1000 + 4 * i), Build.errs s.build b = false) ∧
      Build.errs s.build 0x1014 = true ∧ s.schedule = [] := by decide

/-- The last pixel of an image that ends at the top of the address space (C-14). -/
theorem witness_PixelsReadTheirFourBytes :
    let s := nodeState { vecCfg with imgBase := 0xFFFFFFC0, refEn := true } ⟨0, 0, 4, 4, 0⟩ []
    configCheck s.build s.cfg = none ∧ s.unstable = [] ∧ 3 < s.cfg.W ∧ 3 < s.cfg.H ∧ s.cfg.refEn = true := by decide

/-- A run whose 2 by 2 image lies at 0 to 15: its first and last byte, the first byte outside it; an idle machine and the last
address; an idle machine that an earlier run left with a written byte. -/
theorem witness_HostWritesAreReadBack :
    (let s (a : Nat) : State := { State.reset.primeSymbol .quad with schedule := [.memWrite a 5] }
     Memory.wf (s 0).mem ∧ 16 < 2 ^ (s 0).build.addrW ∧ (s 0).regs.busy = true ∧ (s 0).inRegions 0 = true ∧
       (s 15).inRegions 15 = true ∧ (12 ≤ 15 ∧ 15 ≤ 12 + 3) ∧ (s 16).regs.busy = true ∧ (s 16).inRegions 16 = false) ∧
    (let s : State := { State.reset with schedule := [.memWrite 0xFFFFFFFF 5], unstable := [8] }
     Memory.wf s.mem ∧ 0xFFFFFFFF < 2 ^ s.build.addrW ∧ s.regs.busy = false ∧
       ∀ b ∈ s.unstable, b < 0xFFFFFFFC ∨ 0xFFFFFFFF < b) ∧
    (let u : State := { State.reset with unstable := [8] }
     u.regs.busy = false ∧ (nextOf (exec (.start 0 true) u)).map (fun w => w.unstable) = some []) := by decide

/-! ### Transfers, passes, completion -/

theorem witness_TransferMovesTheHeadToken :
    (let s : State := { State.reset.primeSymbol .flat with queue := [.idx 0, .pix 1] }
     s.schedule = [] ∧ s.phase = .active ∧ s.sinks.accepts (Token.idx 0).port = true) ∧
    (let s : State := { State.reset.primeSymbol .flat with
        queue := [.pix 1], sinks := { State.reset.sinks with pixReady := false } }
     s.schedule = [] ∧ s.phase = .active ∧ s.sinks.accepts (Token.pix 1).port = false) ∧
    (let s : State := { State.reset.primeSymbol .hit with cacheReady := false }
     s.schedule = [] ∧ s.phase = .cacheWait ∧ s.cacheReady = false) := by decide

theorem witness_PassEndBeginsTheNextPassOrCompletes :
    let s : State := { State.reset.primeSymbol .flat with stack := [] }
    s.schedule = [] ∧ s.phase = .active ∧ s.queue = [] ∧ s.stack = [] ∧ s.passes = [.full] ∧
      ({ s with passes := [.luma, .chroma] } : State).passes = .luma :: .chroma :: [] := by decide

/-! ### The invariant and the whole machine -/

/-- A run at the root of a 2×2 image meets the invariant. -/
theorem runState_inv : (State.reset.primeSymbol .quad).Inv where
  build := by decide
  memWf := by decide
  memSpace := by decide
  regs := by constructor <;> decide
  phaseBusy := by decide
  idleEmpty := by decide
  activePending := by decide
  waitPending := by intro h; exact absurd h (by decide)
  cfgRegs := by decide
  cfgChecked := by decide
  keyframe := by decide
  passes := by intro _; exact ⟨by decide, ⟨[], rfl⟩⟩
  frames := by
    intro fr h
    obtain rfl : fr = ⟨0, 0, 2, 2, 0⟩ := by simpa [State.primeSymbol, State.primeNode, primeFrame, rootFrame, primeCfg] using h
    constructor <;> decide
  stack := ⟨by decide, trivial⟩
  queue := by intro i h; cases h

/-- A step from a state that meets the invariant: the premises of EveryStepKeepsTheInvariant. -/
theorem witness_EveryStepKeepsTheInvariant :
    (State.reset.primeSymbol .quad).Inv ∧ ∃ t, step (State.reset.primeSymbol .quad) = .next t :=
  ⟨runState_inv, _, rfl⟩

theorem witness_StackIsBounded :
    (State.reset.primeSymbol .quad).Inv ∧ (State.reset.primeSymbol .quad).regs.busy = true := ⟨runState_inv, rfl⟩

theorem witness_NothingStopsButAWriteOutOfSpace :
    ((State.reset.primeSymbol .quad).Inv ∧ ∀ e ∈ (State.reset.primeSymbol .quad).schedule.head?,
      ¬e.OutOfSpace (State.reset.primeSymbol .quad).build) ∧
    step { State.reset with schedule := [.memWrite (2 ^ 32) 0] } = .fault (.noSuchAddress (2 ^ 32)) :=
  ⟨⟨runState_inv, fun _ h => by cases h⟩, rfl⟩

theorem witness_TheBlockNeverWritesMemory :
    (∃ t, exec .quad (State.reset.primeSymbol .quad) = .next t) ∧ ∃ t, step (State.reset.primeSymbol .quad) = .next t :=
  ⟨⟨_, rfl⟩, _, rfl⟩

theorem witness_ConfigurationIsFixedDuringARun :
    ∃ t, step (State.reset.primeSymbol .quad) = .next t ∧ (State.reset.primeSymbol .quad).regs.busy = true ∧
      t.regs.busy = true := ⟨_, rfl, rfl, rfl⟩

/-- The block's own move is the event, and a token is transferred; the host discards what a sink holds. -/
theorem witness_OnlyTransfersCount :
    (let s : State := { State.reset.primeSymbol .quad with queue := [.cmd true], schedule := [.own, .reset] }
     (∀ e ∈ s.schedule.head?, e ≠ .reset ∧ ∀ w, e ≠ .access w) ∧
       ∃ t, step s = .next t ∧ t.regs.cmdBits = 1 ∧ t.queue = []) ∧
    (let s : State := { State.reset with
        schedule := [.drainSinks], sinks := { State.reset.sinks with cmd := [true] } }
     (∀ e ∈ s.schedule.head?, e ≠ .reset ∧ ∀ w, e ≠ .access w) ∧ ∃ t, step s = .next t ∧ t.sinks.cmd = []) :=
  ⟨⟨by simp, _, rfl, rfl, rfl⟩, by simp, _, rfl, rfl⟩

theorem witness_DoneComesAfterTheLastTransfer :
    ∃ t, step { State.reset.primeSymbol .quad with stack := [] } = .next t ∧
      ({ State.reset.primeSymbol .quad with stack := [] } : State).regs.done = false ∧ t.regs.done = true :=
  ⟨_, rfl, rfl, rfl⟩

theorem witness_RunningMeansNoOutcome :
    (State.reset.primeSymbol .quad).Inv ∧ (State.reset.primeSymbol .quad).regs.busy = true := ⟨runState_inv, rfl⟩

theorem witness_CacheIsAskedOnlyForCachedNodes :
    (∃ t, exec .quad (State.reset.primeSymbol .quad) = .next t) ∧
    ∃ t, (State.reset.primeNode (primeCfg .hit) (primeFrame .hit)).schedule = [] ∧
      step (State.reset.primeNode (primeCfg .hit) (primeFrame .hit)) = .next t ∧
      (State.reset.primeNode (primeCfg .hit) (primeFrame .hit)).phase = .active ∧ t.phase = .cacheWait :=
  ⟨⟨_, rfl⟩, _, rfl, rfl, rfl, rfl⟩

/-- A non-lazy root, so that it reads. -/
theorem readState_inv : (State.reset.primeNode { primeCfg .quad with lazy := 0 } ⟨0, 0, 2, 2, 0⟩).Inv where
  build := by decide
  memWf := by decide
  memSpace := by decide
  regs := by constructor <;> decide
  phaseBusy := by decide
  idleEmpty := by decide
  activePending := by decide
  waitPending := by intro h; exact absurd h (by decide)
  cfgRegs := by decide
  cfgChecked := by decide
  keyframe := by decide
  passes := by intro _; exact ⟨by decide, ⟨[], rfl⟩⟩
  frames := by
    intro fr h
    obtain rfl : fr = ⟨0, 0, 2, 2, 0⟩ := by simpa [State.primeNode] using h
    constructor <;> decide
  stack := ⟨by decide, trivial⟩
  queue := by intro i h; cases h

theorem witness_ReadsStayInsideTheImages :
    let s := State.reset.primeNode { primeCfg .quad with lazy := 0 } ⟨0, 0, 2, 2, 0⟩
    s.Inv ∧ s.regs.busy = true ∧ (⟨0, 0, 2, 2, 0⟩ : Frame) ∈ s.stack ∧ 12 ∈ s.readSet ⟨0, 0, 2, 2, 0⟩ :=
  ⟨readState_inv, rfl, by decide, by decide⟩

/-! ### Geometry -/

theorem witness_ChildrenPartitionTheirParent :
    let fr : Frame := ⟨0, 0, 2, 3, 0⟩
    fr.x1 < fr.x2 ∧ fr.y1 < fr.y2 ∧ 2 ≤ fr.x2 - fr.x1 ∧ 2 ≤ fr.y2 - fr.y1 := by decide

theorem witness_ChildrenAreShallower :
    1 ≤ 1 ∧ ((⟨0, 0, 2, 2, 0⟩ : Frame).w > 1 ∧ (⟨0, 0, 2, 2, 0⟩ : Frame).h > 1 ∧
      (⟨1, 1, 2, 2, 1⟩ : Frame) ∈ quadChildren ⟨0, 0, 2, 2, 0⟩) ∧
    ((⟨0, 0, 3, 1, 0⟩ : Frame).w > 1 ∧ (⟨0, 0, 3, 1, 0⟩ : Frame).h ≤ 1 ∧
      (⟨1, 0, 3, 1, 1⟩ : Frame) ∈ splitxChildren ⟨0, 0, 3, 1, 0⟩) ∧
    ((⟨0, 0, 1, 3, 0⟩ : Frame).w ≤ 1 ∧ (⟨0, 0, 1, 3, 0⟩ : Frame).h > 1 ∧
      (⟨0, 1, 1, 3, 1⟩ : Frame) ∈ splityChildren ⟨0, 0, 1, 3, 0⟩) := by decide

/-! ### The run as a whole -/

theorem witness_StackMachineTransfersEncodeRun :
    let s := State.reset.primeSymbol .quad
    s.Free ∧ s.phase = .active ∧ s.queue = [] ∧ s.pending = none ∧ s.passes = passList s.cfg.colordiff ∧
      s.stack = [⟨0, 0, s.cfg.W, s.cfg.H, 0⟩] ∧ s.unstable = [] ∧ s.build.memErr = [] ∧
      (encodeRun platformCache s.cfg s.P s.Q s.cache).isSome = true :=
  ⟨⟨rfl, rfl, rfl, rfl, rfl⟩, rfl, rfl, rfl, rfl, rfl, rfl, rfl, by decide⟩

theorem witness_EveryRunEnds :
    (State.reset.primeSymbol .quad).Inv ∧ (State.reset.primeSymbol .quad).Free ∧
      (State.reset.primeSymbol .quad).regs.busy = true :=
  ⟨runState_inv, ⟨rfl, rfl, rfl, rfl, rfl⟩, rfl⟩

/-- A cache that keeps one key, in slot 0. -/
def oneSlot : CacheModel (Option Key) :=
  { holds := fun s i => if i = 0 then s else none
    lookup := fun s k => if s = some k then (s, .hit 0) else (some k, .inserted)
    add := fun _ k => some k
    touch := fun s _ => s }

theorem oneSlot_contract : oneSlot.Contract where
  hit := by
    intro s k s' i h
    by_cases hs : s = some k
    · have h' : (s, Resp.hit 0) = (s', Resp.hit i) := by simpa [oneSlot, hs] using h
      obtain ⟨rfl, hi⟩ := Prod.mk.inj h'
      cases hi
      exact ⟨by simp [oneSlot, hs], rfl⟩
    · simp [oneSlot, hs] at h
  inserted := by
    intro s k s' h
    by_cases hs : s = some k
    · simp [oneSlot, hs] at h
    · have h' : some k = s' := by simpa [oneSlot, hs] using h
      refine ⟨fun i => ?_, h'.symm⟩
      by_cases hi : i = 0 <;> simp [oneSlot, hi, hs]

theorem witness_DecodeOfEncodeReturnsTheImage :
    oneSlot.Contract ∧ configCheck Build.reference { cfg9 with indexbits := 0 } = none ∧
      (encodeRun oneSlot { cfg9 with indexbits := 0 } img9 img9 none).map (fun r => (streamsOf 0 r.1, r.2)) =
        some (⟨[false, false, true, false, false], [⟨0, 0⟩], key9.bytes⟩, some key9) :=
  ⟨oneSlot_contract, by decide, by decide⟩

/-- The last pixel of a 2 by 3 region, and an ACK that clears the last outcome. -/
theorem witness_RawPayloadIsRowMajor : (3 ≤ 4 ∧ 4 < 5) ∧ (1 ≤ 3 ∧ 3 < 4) ∧
    ((raw true (fun x y => px (BitVec.ofNat 8 x) (BitVec.ofNat 8 y) 0) ⟨3, 1, 5, 4, 0⟩ .chroma).drop
      (((3 - 1) * (5 - 3) + (4 - 3)) * 2)).take 2 = [0, 4] := by decide

theorem witness_ReadWordsHaveTheFieldLayout : (State.reset.primeSymbol .quad).Inv := runState_inv

/-- What a decode that went through leaves of the three sequences. -/
def leftOf {C : Type} : DecResult C → Option Streams
  | .ok st => some ⟨st.cmd, st.idx, st.pix⟩
  | .fail _ => none
  | .undef _ => none

/-- A read of all the bytes there are, one past the end, a token of the decoder's width at the top of its range, no token, and a
decode that leaves a token. -/
theorem witness_DecoderReadsMoveForwardOnly :
    (2 ≤ [1#8, 2#8].length ∧ [1#8, 2#8].length < 3) ∧ (15 : Nat) < 2 ^ 4 ∧ (0 : Nat) < 2 ^ 0 ∧
    leftOf (decode (rc 0) vecCfg.toDec ⟨[true, false], [⟨0, 4⟩], [1, 2, 3]⟩ none []) = some ⟨[false], [⟨0, 4⟩], []⟩ := by decide

theorem witness_AckClearsWhatItNames :
    ((Regs.reset.enterFault .mem 8).acknowledge 4).done = false ∧ ((Regs.reset.enterFault .mem 8).acknowledge 4).fault = false ∧
      (Regs.reset.enterFault .mem 8).fault = true := by decide

theorem witness_EncodeWithoutCacheCompletes : vecCfg.cacheEn = false := rfl

theorem witness_AlphaNeverMatters :
    (∀ (_x _y : Nat) (c : Channel), c ≠ .a → (px 1 2 3).get c = (⟨1, 2, 3, 9⟩ : Pixel).get c) ∧ px 1 2 3 ≠ ⟨1, 2, 3, 9⟩ := by
  refine ⟨fun _ _ c h => ?_, by decide⟩
  cases c <;> first | rfl | exact absurd rfl h

/-- A uniform image: without a reference, with one that differs, with one that is equal, and in two passes. -/
theorem witness_UniformImageCompacts :
    configCheck Build.reference vecCfg = none ∧ configCheck Build.reference { vecCfg with refEn := true } = none ∧
    configCheck Build.reference { vecCfg with colordiff := 2 } = none ∧ vecCfg.lazy = 0 ∧ vecCfg.colordiff ≠ 2 ∧
    AgreeOn (fun _ _ => px 7 8 9) (fun _ _ => px 7 8 9) (rootFrame 4 4) [.x, .y, .z] ∧
    ¬AgreeOn (fun _ _ => px 7 8 9) (fun _ _ => px 0 0 0) (rootFrame 4 4) [.x, .y, .z] := by
  refine ⟨by decide, by decide, by decide, rfl, by decide, fun _ _ _ _ _ _ _ _ => rfl, fun h => ?_⟩
  exact absurd (h 0 0 (by decide) (by decide) (by decide) (by decide) .x (by decide)) (by decide)

end Sys2Proof.Tests
end

section
/-! PROOF. COLORDIFF chooses the passes of a run and nothing else (R171): no node of a pass looks at it. -/

namespace Sys2Proof.Machine

/-- A configuration with another COLORDIFF. -/
def RunCfg.withColordiff (cfg : RunCfg) (v : BitVec 2) : RunCfg := { cfg with colordiff := v }

section
variable (cfg : RunCfg) (v : BitVec 2)

@[simp] theorem RunCfg.withColordiff_colordiff : (cfg.withColordiff v).colordiff = v := rfl

@[simp] theorem RunCfg.withColordiff_W : (cfg.withColordiff v).W = cfg.W := rfl

@[simp] theorem RunCfg.withColordiff_H : (cfg.withColordiff v).H = cfg.H := rfl

@[simp] theorem RunCfg.withColordiff_maxdepth : (cfg.withColordiff v).maxdepth = cfg.maxdepth := rfl

@[simp] theorem RunCfg.withColordiff_bgra : (cfg.withColordiff v).bgra = cfg.bgra := rfl

@[simp] theorem classify_withColordiff : classify (cfg.withColordiff v) = classify cfg := rfl

@[simp] theorem flatTokens_withColordiff : flatTokens (cfg.withColordiff v) = flatTokens cfg := rfl

@[simp] theorem splitTokens_withColordiff : splitTokens (cfg.withColordiff v) = splitTokens cfg := rfl

@[simp] theorem rawTokens_withColordiff : rawTokens (cfg.withColordiff v) = rawTokens cfg := rfl

@[simp] theorem encodeCached_withColordiff {C : Type} (key : Key) (answer : C × Resp) :
    encodeCached (cfg.withColordiff v) key answer = encodeCached cfg key answer := by
  obtain ⟨c, _ | _ | _⟩ := answer <;> rfl

variable {C : Type} (M : CacheModel C) (P Q : Image)

/-- Every class of node encodes by the operations above; a split hands its children the bound below. -/
@[simp] theorem encodeNode_withColordiff (p : Pass) (n : Nat) :
    encodeNode M (cfg.withColordiff v) P Q p n = encodeNode M cfg P Q p n := by
  induction n with
  | zero => rfl
  | succ n ih =>
    funext fr c
    cases h : classify cfg P Q fr p with
    | skip | flat | deep | leaf => simp [encodeNode, h]
    | quad | splitx | splity => simp [encodeNode, h, ih]
    | cached => simp [encodeNode, h]

@[simp] theorem encodePasses_withColordiff (ps : List Pass) (c : C) :
    encodePasses M (cfg.withColordiff v) P Q ps c = encodePasses M cfg P Q ps c := by
  induction ps generalizing c with
  | nil => rfl
  | cons p ps ih =>
    simp [encodePasses, ih]

/-- A run under another COLORDIFF is the same configuration's run over that COLORDIFF's passes (R171). -/
theorem encodeRun_withColordiff (c0 : C) :
    encodeRun M (cfg.withColordiff v) P Q c0 = encodePasses M cfg P Q (passList v) c0 := by
  simp [encodeRun]

end

/-- COLORDIFF 1 and COLORDIFF 0 give the same passes (R171). -/
theorem passList_one_eq_passList_zero : passList 1 = passList 0 := by decide

/-- Settles O57: both runs are the run over the one pass the two values share. -/
theorem colordiffOneEncodesAsZero : Obligations.ColordiffOneEncodesAsZero := by
  unfold Obligations.ColordiffOneEncodesAsZero
  intro C M cfg P Q c0
  calc encodeRun M (cfg.withColordiff 1) P Q c0
    _ = encodePasses M cfg P Q (passList 1) c0 := encodeRun_withColordiff cfg 1 M P Q c0
    _ = encodePasses M cfg P Q (passList 0) c0 := by rw [passList_one_eq_passList_zero]
    _ = encodeRun M (cfg.withColordiff 0) P Q c0 := (encodeRun_withColordiff cfg 0 M P Q c0).symm

end Sys2Proof.Machine
end

section
/-! PROOF. The depth function `k` of R178: its equation, and that it grows with the extent. -/

namespace Sys2Proof.Machine

/-- A bound of at least the extent is as good as any other: an extent above `M ≥ 1` gets smaller when halved. -/
theorem halvings_eq_of_le {M : Nat} (hM : 1 ≤ M) :
    ∀ {f g e : Nat}, e ≤ f → e ≤ g → halvings M f e = halvings M g e
  | 0, 0, _, _, _ => rfl
  | 0, g + 1, e, hf, _ => by simp [halvings, show e ≤ M by omega]
  | f + 1, 0, e, _, hg => by simp [halvings, show e ≤ M by omega]
  | f + 1, g + 1, e, hf, hg => by
    by_cases he : e ≤ M
    · simp [halvings, he]
    · have hf' : e - e / 2 ≤ f := by omega
      have hg' : e - e / 2 ≤ g := by omega
      simp [halvings, he, halvings_eq_of_le hM hf' hg']

theorem kDepth_of_le {M e : Nat} (h : e ≤ M) : kDepth M e = 0 := by
  cases e <;> simp [kDepth, halvings, h]

theorem kDepth_of_gt {M e : Nat} (hM : 1 ≤ M) (h : M < e) : kDepth M e = 1 + kDepth M (e - e / 2) := by
  obtain ⟨f, rfl⟩ : ∃ f, e = f + 1 := ⟨e - 1, by omega⟩
  have hle : f + 1 - (f + 1) / 2 ≤ f := by omega
  rw [kDepth, halvings, if_neg (by omega), kDepth, halvings_eq_of_le hM hle (Nat.le_refl _)]

theorem kDepth_mono {M : Nat} (hM : 1 ≤ M) {e e' : Nat} (h : e ≤ e') : kDepth M e ≤ kDepth M e' := by
  induction e' using Nat.strongRecOn generalizing e with
  | ind e' ih =>
    by_cases he : e ≤ M
    · simp [kDepth_of_le he]
    · have he' : M < e' := by omega
      rw [kDepth_of_gt hM (by omega : M < e), kDepth_of_gt hM he']
      exact Nat.add_le_add_left (ih (e' - e' / 2) (by omega) (by omega)) 1

/-- Either half of an extent above `M` has a halving less left to it. -/
theorem kDepth_half_lt {M e c : Nat} (hM : 1 ≤ M) (h : M < e) (hc : c ≤ e - e / 2) : kDepth M c < kDepth M e := by
  have := kDepth_mono hM hc
  rw [kDepth_of_gt hM h]
  omega

end Sys2Proof.Machine
end

section
/-! PROOF. What a configuration that passes START's check meets (R282). -/

namespace Sys2Proof.Machine

/-- The check reports nothing exactly when no cause holds. -/
theorem configCheck_eq_none_iff {b : Build} {c : RunCfg} :
    configCheck b c = none ↔ ¬(c.W = 0 ∨ c.H = 0) ∧ c.M ≠ 0 ∧ ¬(c.W ≤ c.M ∧ c.H ≤ c.M) ∧ c.colordiff ≠ 3 ∧
      ¬(c.cacheEn = true ∧ b.indexbitsMax < c.indexbits) ∧ ¬b.maxHwDepth < dMax c ∧
      ¬(addrOk b c c.imgBase = false ∨ (c.refEn = true ∧ addrOk b c c.refBase = false)) := by
  unfold configCheck
  repeat' split
  all_goals simp_all

/-- The root of a run that START lets begin. -/
theorem rootFrame_ok {b : Build} {c : RunCfg} (h : configCheck b c = none) : (rootFrame c.W c.H).Ok c := by
  obtain ⟨harea, -⟩ := configCheck_eq_none_iff.1 h
  constructor <;> simp only [rootFrame, Frame.w, Frame.h, Nat.sub_zero] <;> omega

theorem passList_ne_nil (v : BitVec 2) : passList v ≠ [] := by
  unfold passList
  split <;> simp

end Sys2Proof.Machine
end

section
/-! PROOF. The children of a node, and the stack they are pushed on (R176, R177, R42). -/

namespace Sys2Proof.Machine

/-- The frames a node of a class pushes (R177); none unless it splits. -/
def NodeClass.children (fr : Frame) : NodeClass → List Frame
  | .quad => quadChildren fr
  | .splitx => splitxChildren fr
  | .splity => splityChildren fr
  | .skip | .flat | .deep | .cached | .leaf => []

/-- The split rule and the cached leaf are read from the frame alone (R175, R176). -/
theorem classifyNonFlat_of_classify {c : RunCfg} {P Q : Image} {fr : Frame} {p : Pass}
    (hskip : classify c P Q fr p ≠ .skip) (hflat : classify c P Q fr p ≠ .flat) :
    classifyNonFlat c fr = classify c P Q fr p := by
  unfold classify at hskip hflat ⊢
  split
  · next h => exact absurd (if_pos h) hskip
  · next h =>
    split
    · next h' => exact absurd ((if_neg h).trans (if_pos h')) hflat
    · rfl

/-- A node that pushes children splits on an axis above `M`, below the ceiling; on an axis it does not split it is not above `M`
(R175, R176). -/
theorem splits_of_classifyNonFlat {c : RunCfg} {fr : Frame} {k : NodeClass} (h : classifyNonFlat c fr = k)
    (hs : k.isSplit = true) : fr.d ≠ c.maxdepth ∧
      ((k = .quad ∧ c.M < fr.w ∧ c.M < fr.h) ∨ (k = .splitx ∧ c.M < fr.w ∧ fr.h ≤ c.M) ∨
        (k = .splity ∧ fr.w ≤ c.M ∧ c.M < fr.h)) := by
  subst h
  unfold classifyNonFlat at hs ⊢
  repeat' split
  all_goals simp_all [NodeClass.isSplit]

theorem NodeClass.isSplit_of_mem_children {fr f : Frame} {k : NodeClass} (h : f ∈ k.children fr) : k.isSplit = true := by
  cases k <;> simp_all [NodeClass.children, NodeClass.isSplit]

/-- A frame of the image one level below `fr`, each of whose extents is at most `M` or a half of `fr`'s. -/
theorem Frame.Ok.child {c : RunCfg} {fr f : Frame} (h : fr.Ok c) (hM : 1 ≤ c.M) (hd : fr.d ≠ c.maxdepth)
    (hbig : c.M < fr.w ∨ c.M < fr.h) (hfd : f.d = fr.d + 1)
    (hx : f.x1 < f.x2 ∧ f.x2 ≤ fr.x2) (hy : f.y1 < f.y2 ∧ f.y2 ≤ fr.y2)
    (hw : f.w ≤ max c.M (fr.w - fr.w / 2)) (hh : f.h ≤ max c.M (fr.h - fr.h / 2)) : f.Ok c := by
  have shrink : ∀ {e e' : Nat}, e' ≤ max c.M (e - e / 2) →
      kDepth c.M e' < max (kDepth c.M fr.w) (kDepth c.M fr.h) ∨ kDepth c.M e' < kDepth c.M e := by
    intro e e' he
    by_cases hsmall : e' ≤ c.M
    · have hpos : ∀ {n}, c.M < n → 0 < kDepth c.M n := fun hn => by rw [kDepth_of_gt hM hn]; omega
      have := hbig.imp hpos hpos
      rw [kDepth_of_le hsmall]
      omega
    · exact .inr (kDepth_half_lt hM (by omega) (by omega))
  have hkw := shrink hw
  have hkh := shrink hh
  obtain ⟨-, -, hW, hH, hdepth, hhalvings⟩ := h
  constructor <;> omega

/-- Every child of a node of a run is a frame of the run (R177, R178, R179). -/
theorem Frame.Ok.children {c : RunCfg} {fr f : Frame} {k : NodeClass} (h : fr.Ok c) (hM : 1 ≤ c.M)
    (hk : k.isSplit = true → classifyNonFlat c fr = k) (hf : f ∈ k.children fr) : f.Ok c := by
  have hsplit := NodeClass.isSplit_of_mem_children hf
  obtain ⟨hd, hrule⟩ := splits_of_classifyNonFlat (hk hsplit) hsplit
  have hx := h.xs
  have hy := h.ys
  obtain ⟨rfl, hw, hh⟩ | ⟨rfl, hw, hh⟩ | ⟨rfl, hw, hh⟩ := hrule
  case inl =>
    simp only [NodeClass.children, quadChildren, List.mem_cons, List.not_mem_nil, or_false] at hf
    obtain rfl | rfl | rfl | rfl := hf
    all_goals
      refine h.child hM hd (.inl hw) rfl ?_ ?_ ?_ ?_ <;> simp only [Frame.w, Frame.h, Frame.xm, Frame.ym] at * <;> omega
  case inr.inl =>
    simp only [NodeClass.children, splitxChildren, List.mem_cons, List.not_mem_nil, or_false] at hf
    obtain rfl | rfl := hf
    all_goals
      refine h.child hM hd (.inl hw) rfl ?_ ?_ ?_ ?_ <;> simp only [Frame.w, Frame.h, Frame.xm] at * <;> omega
  case inr.inr =>
    simp only [NodeClass.children, splityChildren, List.mem_cons, List.not_mem_nil, or_false] at hf
    obtain rfl | rfl := hf
    all_goals
      refine h.child hM hd (.inr hh) rfl ?_ ?_ ?_ ?_ <;> simp only [Frame.w, Frame.h, Frame.ym] at * <;> omega

theorem StackOk.tail {fr : Frame} {rest : List Frame} (h : StackOk (fr :: rest)) : StackOk rest := h.2

/-- Frames deep enough for all that lies under them may be pushed. -/
theorem StackOk.append {cs rest : List Frame} (hrest : StackOk rest)
    (hcs : ∀ f ∈ cs, cs.length + rest.length ≤ 3 * f.d + 1) : StackOk (cs ++ rest) := by
  induction cs with
  | nil => exact hrest
  | cons f cs ih =>
    obtain ⟨hf, hcs⟩ := List.forall_mem_cons.1 hcs
    simp only [List.length_cons] at hf hcs
    refine ⟨List.length_append.trans_le (by omega), ih fun g hg => ?_⟩
    have := hcs g hg
    omega

theorem NodeClass.children_length_le (fr : Frame) (k : NodeClass) : (k.children fr).length ≤ 4 := by
  cases k <;> simp [NodeClass.children, quadChildren, splitxChildren, splityChildren]

theorem NodeClass.children_depth {fr f : Frame} {k : NodeClass} (h : f ∈ k.children fr) : f.d = fr.d + 1 := by
  have : ∀ f ∈ k.children fr, f.d = fr.d + 1 := by
    cases k <;> simp [NodeClass.children, quadChildren, splitxChildren, splityChildren]
  exact this f h

/-- A node popped and its children pushed (R42): at most three frames more, one level deeper. -/
theorem StackOk.pushChildren {fr : Frame} {rest : List Frame} (h : StackOk (fr :: rest)) (k : NodeClass) :
    StackOk (k.children fr ++ rest) := by
  refine h.tail.append fun f hf => ?_
  have := h.1
  have := k.children_length_le fr
  have := NodeClass.children_depth hf
  omega

/-- A stack is no longer than three frames for each level of its top, and the top (R42). -/
theorem StackOk.length_le {stack : List Frame} {D : Nat} (h : StackOk stack) (hD : ∀ fr ∈ stack, fr.d ≤ D) :
    stack.length ≤ 3 * D + 1 := by
  cases stack with
  | nil => simp
  | cons fr rest =>
    have := h.1
    have := hD fr (List.mem_cons_self ..)
    simp only [List.length_cons]
    omega

end Sys2Proof.Machine
end

section
/-! PROOF. What the instructions and the block's own step can do, one lemma for each kind (R130 to R133, R180, R200 to R209). -/

namespace Sys2Proof.Machine

/-! ### Host writes -/

theorem exec_regwr {off : BitVec 6} {r : Reg} (h : regAt off = some r) (v : Word) (s : State) :
    exec (.regwr off v) s = .next (s.regWrite r v).writeDone := by
  simp [exec, execRegwr, h]

theorem exec_regrd {off : BitVec 6} {r : Reg} (h : regAt off = some r) (data : Word) (s : State) :
    exec (.regrd off data) s = .next (s.readDone (s.regs.read r)) := by
  simp [exec, execRegrd, h]

theorem exec_regwr_unaligned {off : BitVec 6} (h : regAt off = none) (v : Word) (s : State) :
    exec (.regwr off v) s = .next s.refuseWrite := by
  simp [exec, execRegwr, h]

theorem exec_regrd_unaligned {off : BitVec 6} (h : regAt off = none) (data : Word) (s : State) :
    exec (.regrd off data) s = .next s.refuseRead := by
  simp [exec, execRegrd, h]

theorem exec_start (rest : BitVec 30) (irqEn : Bool) (s : State) :
    exec (.start rest irqEn) s = .next (s.setIrqEn irqEn).start.writeDone := rfl

theorem exec_ack (v : Word) (s : State) : exec (.ack v) s = .next (s.ack v).writeDone := rfl

theorem regWrite_config_idle {s : State} {r : Reg} (hr : r.isConfig = true) (hb : s.regs.busy = false) (v : Word) :
    s.regWrite r v = { s with regs := s.regs.writeCfg s.build v r } := by
  cases r <;> simp_all [State.regWrite, Reg.isConfig]

theorem regWrite_config_busy {s : State} {r : Reg} (hr : r.isConfig = true) (hb : s.regs.busy = true) (v : Word) :
    s.regWrite r v = s := by
  cases r <;> simp_all [State.regWrite, Reg.isConfig]

theorem regWrite_ignored {r : Reg} (hr : r.ignoresWrites = true) (s : State) (v : Word) : s.regWrite r v = s := by
  cases r <;> simp_all [State.regWrite, Reg.ignoresWrites]

theorem regWrite_ctrl_start {v : Word} (h : v.getLsbD 0 = true) (s : State) :
    s.regWrite .ctrl v = (s.setIrqEn (v.getLsbD 1)).start :=
  if_pos h

theorem regWrite_ctrl_irqEn {v : Word} (h : v.getLsbD 0 = false) (s : State) :
    s.regWrite .ctrl v = s.setIrqEn (v.getLsbD 1) :=
  if_neg (Bool.eq_false_iff.1 h)

/-- A START is the CTRL write that carries it (R130, R132). -/
theorem regWrite_startData (rest : BitVec 30) (e : Bool) (s : State) :
    s.regWrite .ctrl (rest ++ BitVec.ofBool e ++ 1#1) = (s.setIrqEn e).start := by
  rw [regWrite_ctrl_start (startData_getLsbD rest e 0), startData_getLsbD]
  rfl

theorem regWrite_status (s : State) (v : Word) : s.regWrite .status v = s.ack v := rfl

/-- A register is CTRL, STATUS, a configuration register, or one whose writes are ignored (R22, R130). -/
theorem Reg.kinds (r : Reg) : r = .ctrl ∨ r = .status ∨ r.isConfig = true ∨ r.ignoresWrites = true := by
  cases r <;> simp [Reg.isConfig, Reg.ignoresWrites]

/-- Everything a host write does to the block (R130). -/
theorem regWrite_cases (s : State) (r : Reg) (v : Word) :
    s.regWrite r v = s ∨ (∃ b, s.regWrite r v = s.setIrqEn b) ∨ (∃ b, s.regWrite r v = (s.setIrqEn b).start) ∨
      s.regWrite r v = s.ack v ∨
      (r.isConfig = true ∧ s.regs.busy = false ∧ s.regWrite r v = { s with regs := s.regs.writeCfg s.build v r }) := by
  obtain rfl | rfl | hr | hr := r.kinds
  · rcases h : v.getLsbD 0 with _ | _
    · exact .inr (.inl ⟨_, regWrite_ctrl_irqEn h s⟩)
    · exact .inr (.inr (.inl ⟨_, regWrite_ctrl_start h s⟩))
  · exact .inr (.inr (.inr (.inl rfl)))
  · rcases hb : s.regs.busy with _ | _
    · exact .inr (.inr (.inr (.inr ⟨hr, rfl, regWrite_config_idle hr hb v⟩)))
    · exact .inl (regWrite_config_busy hr hb v)
  · exact .inl (regWrite_ignored hr s v)

/-! ### Node symbols -/

@[simp] theorem idx_notMem_pixTokens (i : Nat) (bs : List Byte) : Token.idx i ∉ pixTokens bs := by simp [pixTokens]

@[simp] theorem idx_notMem_refTokens (i : Nat) (c : RunCfg) : Token.idx i ∉ refTokens c := by
  unfold refTokens
  split <;> simp

@[simp] theorem idx_notMem_splitTokens (i : Nat) (c : RunCfg) : Token.idx i ∉ splitTokens c := by simp [splitTokens]

/-- The tokens of a node of a class; a CACHED node has none until the cache answers (R200 to R206). -/
def NodeClass.tokens (c : RunCfg) (P : Image) (p : Pass) (fr : Frame) : NodeClass → List Token
  | .skip => skipTokens
  | .flat => flatTokens c P fr p
  | .quad | .splitx | .splity => splitTokens c
  | .deep | .leaf => rawTokens c P fr p
  | .cached => []

theorem NodeClass.idx_notMem_tokens (i : Nat) (c : RunCfg) (P : Image) (p : Pass) (fr : Frame) (k : NodeClass) :
    Token.idx i ∉ k.tokens c P p fr := by
  cases k <;> simp [NodeClass.tokens, skipTokens, flatTokens, rawTokens]

/-- The node step of every symbol but HIT and MISS: its class's tokens are queued and its children pushed (R180). -/
theorem exec_symbol {k : NodeClass} {i : Instr} (h : k.symbol = some i) (s : State) :
    exec i s = s.nodeStep k fun p fr t => (t.enqueue (k.tokens s.cfg s.P p fr)).pushChildren (k.children fr) := by
  cases k <;> simp only [NodeClass.symbol, Option.some.injEq, reduceCtorEq] at h <;> subst h <;> rfl

/-- The state after the cache has answered the request of `pd`, before the node is finished (R209). -/
def State.answered (s : State) (pd : Pending) : State := { s with cache := (cacheLookup s.cache pd.key).1, pending := none }

/-- The state in which the node that waited for the cache is finished: its tokens are queued (R207, R208). -/
def State.resume (s : State) (ts : List Token) : State := { s with queue := ts, phase := .active }

theorem cacheResponse_next {s t : State} {act : Pending → State → Resp → Host.Outcome State Fault Refusal}
    (h : s.cacheResponse act = .next t) : ∃ pd, s.phase = .cacheWait ∧ s.pending = some pd ∧
      act pd (s.answered pd) (cacheLookup s.cache pd.key).2 = .next t := by
  unfold State.cacheResponse at h
  split at h
  · next pd hphase hpending => exact ⟨pd, hphase, hpending, h⟩
  · simp at h

/-- Everything HIT and MISS can do (R207 to R209): finish the node with tokens whose index fits, or fault with E_CACHE. -/
theorem exec_response_next {i : Instr} {s t : State} (hi : i = .hit ∨ i = .miss) (h : exec i s = .next t) :
    ∃ pd, s.phase = .cacheWait ∧ s.pending = some pd ∧
      (t = (s.answered pd).raiseFault .cache 0 ∨
        ∃ tail, (∀ n, Token.idx n ∈ tail → n < 2 ^ s.cfg.indexbits) ∧
          t = (s.answered pd).resume (pd.head ++ tail)) := by
  obtain rfl | rfl := hi
  case inl =>
    change execHit s = .next t at h
    obtain ⟨pd, hphase, hpending, h⟩ := cacheResponse_next h
    refine ⟨pd, hphase, hpending, ?_⟩
    split at h
    · next j _ =>
      split at h
      · next hj => exact .inr ⟨[.cmd false, .idx j], by simpa using hj, by simpa [State.resume] using h.symm⟩
      · exact .inl (by simpa using h.symm)
    · simp at h
    · exact .inl (by simpa using h.symm)
  case inr =>
    change execMiss s = .next t at h
    obtain ⟨pd, hphase, hpending, h⟩ := cacheResponse_next h
    refine ⟨pd, hphase, hpending, ?_⟩
    split at h
    · exact .inr ⟨.cmd true :: pixTokens pd.key.bytes, by simp, by simpa [State.resume] using h.symm⟩
    · split at h
      · simp at h
      · exact .inl (by simpa using h.symm)
    · exact .inl (by simpa using h.symm)

/-- Everything an instruction can do: a read or a refused access touches the bus alone, START and ACK are register writes, and a
symbol is a node step or an answer of the cache. -/
theorem exec_next {i : Instr} {s t : State} (h : exec i s = .next t) :
    (∃ host, t = { s with host := host }) ∨ (∃ r v, t = (s.regWrite r v).writeDone) ∨
      (∃ k : NodeClass, k.symbol = some i) ∨ i = .hit ∨ i = .miss := by
  cases i with
  | regwr off v =>
    rcases hat : regAt off with _ | r
    · rw [exec_regwr_unaligned hat, Host.Outcome.next.injEq] at h
      exact .inl ⟨_, h.symm⟩
    · exact .inr (.inl ⟨r, v, by simpa [exec_regwr hat] using h.symm⟩)
  | regrd off data =>
    rcases hat : regAt off with _ | r
    · rw [exec_regrd_unaligned hat, Host.Outcome.next.injEq] at h
      exact .inl ⟨_, h.symm⟩
    · rw [exec_regrd hat, Host.Outcome.next.injEq] at h
      exact .inl ⟨_, h.symm⟩
  | start rest e =>
    exact .inr (.inl ⟨.ctrl, rest ++ BitVec.ofBool e ++ 1#1, by simpa [exec_start, regWrite_startData] using h.symm⟩)
  | ack v => exact .inr (.inl ⟨.status, v, by simpa [exec_ack, regWrite_status] using h.symm⟩)
  | skip => exact .inr (.inr (.inl ⟨.skip, rfl⟩))
  | flat => exact .inr (.inr (.inl ⟨.flat, rfl⟩))
  | quad => exact .inr (.inr (.inl ⟨.quad, rfl⟩))
  | splitx => exact .inr (.inr (.inl ⟨.splitx, rfl⟩))
  | splity => exact .inr (.inr (.inl ⟨.splity, rfl⟩))
  | deep => exact .inr (.inr (.inl ⟨.deep, rfl⟩))
  | leaf => exact .inr (.inr (.inl ⟨.leaf, rfl⟩))
  | hit => exact .inr (.inr (.inr (.inl rfl)))
  | miss => exact .inr (.inr (.inr (.inr rfl)))

/-! ### The block's own step, and the events -/

/-- Everything the block, the cache or a sink does when it moves (R182, R183, R180, R209, R306). -/
theorem ownStep_next {s t : State} (h : ownStep s = .next t) :
    t = s ∨ (∃ tok q, s.phase = .active ∧ s.queue = tok :: q ∧ s.sinks.accepts tok.port = true ∧ t = s.transfer tok q) ∨
      (s.phase = .active ∧ s.queue = [] ∧ s.stack = [] ∧ t = s.passEnd) ∨
      (∃ i, s.nextSymbol = some i ∧ exec i s = .next t) ∨ (s.phase = .active ∧ s.sendRequest = .next t) := by
  rcases hphase : s.phase with _ | _ | _
  case idle =>
    rw [ownStep_idle hphase] at h
    exact .inl (by simpa using h.symm)
  case active =>
    rcases hqueue : s.queue with _ | ⟨tok, q⟩
    · rcases hstack : s.stack with _ | ⟨fr, rest⟩
      · rw [ownStep_passEnd hphase hqueue hstack] at h
        exact .inr (.inr (.inl ⟨rfl, rfl, rfl, by simpa using h.symm⟩))
      · rcases hsym : s.nextSymbol with _ | i
        · rw [ownStep_request hphase hqueue hstack hsym] at h
          exact .inr (.inr (.inr (.inr ⟨rfl, h⟩)))
        · rw [ownStep_symbol hphase hqueue hstack hsym] at h
          exact .inr (.inr (.inr (.inl ⟨i, rfl, h⟩)))
    · rw [ownStep_transfer hphase hqueue] at h
      split at h
      · next hacc => exact .inr (.inl ⟨tok, q, rfl, rfl, hacc, by simpa using h.symm⟩)
      · exact .inl (by simpa using h.symm)
  case cacheWait =>
    rcases hready : s.cacheReady with _ | _
    · rw [ownStep_wait hphase hready] at h
      exact .inl (by simpa using h.symm)
    · rcases hsym : s.nextSymbol with _ | i
      · simp [ownStep, hphase, hready, hsym] at h
      · rw [ownStep_response hphase hready hsym] at h
        exact .inr (.inr (.inr (.inl ⟨i, rfl, h⟩)))

/-- Everything one event can do: run an instruction, let the block move, reset it, write pixel memory inside the address space,
or change what the block is attached to. -/
theorem runEvent_next {e : Event} {s t : State} (h : runEvent e s = .next t) :
    (∃ i, exec i s = .next t) ∨ ownStep s = .next t ∨ t = s.assertReset ∨
      (∃ a v, a < 2 ^ s.build.addrW ∧ t = s.hostMemWrite a v) ∨
      t = { s with host := t.host, sinks := t.sinks, cacheReady := t.cacheReady, cache := t.cache } := by
  cases e with
  | access w => exact .inl ⟨_, h⟩
  | own => exact .inr (.inl h)
  | reset => exact .inr (.inr (.inl (by simpa [runEvent] using h.symm)))
  | memWrite a v =>
    simp only [runEvent] at h
    split at h
    · next ha => exact .inr (.inr (.inr (.inl ⟨a, v, ha, by simpa using h.symm⟩)))
    · simp at h
  | oddWidthAccess write =>
    simp only [runEvent, Host.Outcome.next.injEq] at h
    subst h
    cases write <;> exact .inr (.inr (.inr (.inr rfl)))
  | setReady | setCacheReady | cacheLoad | drainSinks =>
    simp only [runEvent, Host.Outcome.next.injEq] at h
    subst h
    exact .inr (.inr (.inr (.inr rfl)))

end Sys2Proof.Machine
end

section
/-! PROOF. What keeps the rules of the host registers (R22, R34, R36, R280). -/

namespace Sys2Proof.Machine

theorem lowBits_lt (n : Nat) (v : Word) : (lowBits n v).toNat < 2 ^ n := by
  rw [lowBits, BitVec.toNat_ofNat]
  exact Nat.lt_of_le_of_lt (Nat.mod_le ..) (Nat.mod_lt _ (Nat.two_pow_pos n))

/-- The bits an ACK clears, field by field (R133). -/
theorem Regs.acknowledge_eq (r : Regs) (v : Word) : r.acknowledge v = { r with
    done := r.done && !v.getLsbD 1
    fault := r.fault && !v.getLsbD 2
    errcode := if v.getLsbD 2 then 0 else r.errcode
    faultAddr := if v.getLsbD 2 then 0 else r.faultAddr } := by
  unfold Regs.acknowledge
  rcases v.getLsbD 1 with _ | _ <;> rcases v.getLsbD 2 with _ | _ <;> simp

/-- With no outcome to clear an ACK changes nothing (R133). -/
theorem Regs.acknowledge_of_clear {r : Regs} (hdone : r.done = false) (hfault : r.fault = false) (hcode : r.errcode = 0)
    (haddr : r.faultAddr = 0) (v : Word) : r.acknowledge v = r := by
  cases r
  simp_all [Regs.acknowledge_eq]

theorem RunFault.code_ne_zero (f : RunFault) : f.code ≠ 0 := by cases f <;> decide

theorem RunFault.code_le (f : RunFault) : f.code.toNat ≤ 9 := by cases f <;> decide

theorem Regs.reset_ok (b : Build) : Regs.reset.Ok b := by
  constructor <;> simp [Regs.reset]

section
variable {b : Build} {r : Regs}

theorem Regs.Ok.setIrqEn (h : r.Ok b) (e : Bool) : ({ r with irqEn := e } : Regs).Ok b := { h with }

theorem Regs.Ok.acknowledge (h : r.Ok b) (v : Word) : (r.acknowledge v).Ok b := by
  rw [Regs.acknowledge_eq]
  rcases v.getLsbD 2 with _ | _
  · exact { h with
      notBoth := by have := h.notBoth; simp_all
      busyClear := by have := h.busyClear; simp_all
      errcodeFault := by simpa using h.errcodeFault }
  · exact { h with
      faultAddr := by simp
      notBoth := by simp
      busyClear := by have := h.busyClear; simp_all
      errcode := by simp
      errcodeFault := by simp
      faultAddrMem := by simp }

theorem Regs.Ok.count (h : r.Ok b) (p : Port) : (r.count p).Ok b := by cases p <;> exact { h with }

theorem Regs.Ok.complete (h : r.Ok b) (hb : r.busy = true) : r.complete.Ok b :=
  { h with
    notBoth := by simp [(h.busyClear hb).2]
    busyClear := by simp }

theorem Regs.Ok.enterFault (h : r.Ok b) (f : RunFault) {info : Word} (hinfo : info.toNat < 2 ^ b.addrW) :
    (r.enterFault f info).Ok b :=
  { h with
    faultAddr := by
      rw [Regs.enterFault_faultAddr]
      split
      · exact hinfo
      · simp
    notBoth := by simp
    busyClear := by simp
    errcode := f.code_le
    errcodeFault := iff_of_true f.code_ne_zero rfl
    faultAddrMem := fun hcode => if_neg fun hf => hcode (by rw [Regs.enterFault_errcode, hf]; rfl) }

theorem Regs.Ok.clearForStart (h : r.Ok b) : r.clearForStart.Ok b :=
  { h with
    faultAddr := by simp
    notBoth := by simp
    busyClear := by simp
    errcode := by simp
    errcodeFault := by simp
    faultAddrMem := by simp }

/-- BUSY may be set where no outcome stands (R34). -/
theorem Regs.Ok.setBusy (h : r.Ok b) (hd : r.done = false) (hf : r.fault = false) : ({ r with busy := true } : Regs).Ok b :=
  { h with busyClear := fun _ => ⟨hd, hf⟩ }

theorem Regs.Ok.writeCfg (h : r.Ok b) (v : Word) (reg : Reg) : (r.writeCfg b v reg).Ok b := by
  cases reg
  case width => exact { h with width := lowBits_lt .. }
  case height => exact { h with height := lowBits_lt .. }
  case minsize => exact { h with minsize := lowBits_lt .. }
  case imgBase => exact { h with imgBase := lowBits_lt .. }
  case refBase => exact { h with refBase := lowBits_lt .. }
  all_goals exact { h with }

end

@[simp] theorem Regs.writeCfg_busy (b : Build) (r : Regs) (v : Word) (reg : Reg) : (r.writeCfg b v reg).busy = r.busy := by
  cases reg <;> rfl

@[simp] theorem Regs.acknowledge_busy (r : Regs) (v : Word) : (r.acknowledge v).busy = r.busy := by simp [Regs.acknowledge_eq]

@[simp] theorem Regs.acknowledge_keyframe (r : Regs) (v : Word) : (r.acknowledge v).keyframe = r.keyframe := by
  simp [Regs.acknowledge_eq]

@[simp] theorem Regs.count_busy (r : Regs) (p : Port) : (r.count p).busy = r.busy := by cases p <;> rfl

@[simp] theorem Regs.count_keyframe (r : Regs) (p : Port) : (r.count p).keyframe = r.keyframe := by cases p <;> rfl

end Sys2Proof.Machine
end

section
/-! PROOF. Every step keeps the invariant: what an idle state needs, and one lemma for each kind of step. -/

namespace Sys2Proof.Machine

/-- The clauses of the invariant that hold whatever the phase: the build, memory and the registers. -/
structure State.BaseOk (s : State) : Prop where
  build : s.build.Legal
  memWf : Memory.wf s.mem
  memSpace : ∀ c ∈ s.mem, c.1 < 2 ^ s.build.addrW
  regs : s.regs.Ok s.build

/-- No run goes on, and no control state is left of one (R39, R47, R283, R184). -/
structure State.AtRest (s : State) : Prop where
  phase : s.phase = .idle
  busy : s.regs.busy = false
  passes : s.passes = []
  stack : s.stack = []
  queue : s.queue = []
  pending : s.pending = none

theorem State.BaseOk.inv_of_atRest {s : State} (h : s.BaseOk) (hrest : s.AtRest) : s.Inv :=
  { h with
    phaseBusy := iff_of_true hrest.phase hrest.busy
    idleEmpty := fun _ => ⟨hrest.passes, hrest.stack, hrest.queue, hrest.pending⟩
    activePending := fun _ => hrest.pending
    waitPending := by simp [hrest.phase]
    cfgRegs := by simp [hrest.busy]
    cfgChecked := by simp [hrest.busy]
    keyframe := by simp [hrest.busy]
    passes := by simp [hrest.busy]
    frames := by simp [hrest.stack]
    stack := by simp [hrest.stack, StackOk]
    queue := by simp [hrest.queue] }

theorem State.BaseOk.raiseFault {s : State} (h : s.BaseOk) (f : RunFault) {info : Word}
    (hinfo : info.toNat < 2 ^ s.build.addrW) : (s.raiseFault f info).Inv :=
  State.BaseOk.inv_of_atRest { h with regs := h.regs.enterFault f hinfo } ⟨rfl, rfl, rfl, rfl, rfl, rfl⟩

/-- The pixel addresses a node reads are inside the address space (R189; log entry 21). -/
theorem State.readSet_lt {s : State} {fr : Frame} {a : Nat} (h : a ∈ s.readSet fr) : a < 2 ^ s.build.addrW := by
  have hpos := Nat.two_pow_pos s.build.addrW
  unfold State.readSet at h
  split at h
  · simp at h
  · rw [List.mem_append] at h
    obtain h | h := h
    · obtain ⟨c, -, rfl⟩ := List.mem_map.1 h
      exact Nat.mod_lt _ hpos
    · split at h
      · obtain ⟨c, -, rfl⟩ := List.mem_map.1 h
        exact Nat.mod_lt _ hpos
      · simp at h

theorem State.firstError_lt {s : State} {fr : Frame} {a : Nat} (h : s.firstError fr = some a) : a < 2 ^ s.build.addrW :=
  State.readSet_lt (List.mem_of_find?_eq_some h)

namespace State.Inv
variable {s t : State} (h : s.Inv)
include h

theorem baseOk : s.BaseOk := { h with }

theorem atRest (hb : s.regs.busy = false) : s.AtRest := by
  have hphase := h.phaseBusy.2 hb
  obtain ⟨hpasses, hstack, hqueue, hpending⟩ := h.idleEmpty hphase
  exact ⟨hphase, hb, hpasses, hstack, hqueue, hpending⟩

theorem busy_of_phase (hp : s.phase ≠ .idle) : s.regs.busy = true := by
  rw [← Bool.not_eq_false]
  exact fun hb => hp (h.phaseBusy.2 hb)

/-- A change of registers that leaves BUSY, KEYFRAME and the configuration as they are. -/
theorem withRegs {r : Regs} (hr : r.Ok s.build) (hbusy : r.busy = s.regs.busy) (hkey : r.keyframe = s.regs.keyframe)
    (hcfg : r.toCfg = s.regs.toCfg) : { s with regs := r }.Inv :=
  { h with
    regs := hr
    phaseBusy := by simpa [hbusy] using h.phaseBusy
    cfgRegs := by simpa [hbusy, hcfg] using h.cfgRegs
    cfgChecked := by simpa [hbusy] using h.cfgChecked
    keyframe := by simpa [hbusy, hkey] using h.keyframe
    passes := by simpa [hbusy] using h.passes }

/-! ### Host accesses -/

/-- What the block is attached to does not enter the invariant, but for memory. -/
theorem of_attached (ht : t = { s with host := t.host, sinks := t.sinks, cacheReady := t.cacheReady, cache := t.cache }) :
    t.Inv := by
  rw [ht]
  exact { h with }

theorem setIrqEn (e : Bool) : (s.setIrqEn e).Inv := h.withRegs (h.regs.setIrqEn e) rfl rfl rfl

theorem ack (v : Word) : (s.ack v).Inv := h.withRegs (h.regs.acknowledge v) (by simp) (by simp) (by simp)

theorem writeDone : s.writeDone.Inv := h.of_attached rfl

/-- A configuration register is written while no run goes on (R130). -/
theorem writeCfg (hb : s.regs.busy = false) (v : Word) (r : Reg) : { s with regs := s.regs.writeCfg s.build v r }.Inv :=
  State.BaseOk.inv_of_atRest { h.baseOk with regs := h.regs.writeCfg v r } { h.atRest hb with busy := by simp [hb] }

/-- A run begins at the root of its first pass, under a configuration that passed the check (R132, R282). -/
theorem beginRun (hb : s.regs.busy = false) (hc : configCheck s.build s.regs.toCfg = none) : s.latchStart.beginRun.Inv :=
  { h with
    regs := h.regs.clearForStart.setBusy rfl rfl
    phaseBusy := by simp
    idleEmpty := by simp
    activePending := fun _ => (h.atRest hb).pending
    waitPending := by simp
    cfgRegs := fun _ => rfl
    cfgChecked := fun _ => hc
    keyframe := fun _ => rfl
    passes := fun _ => ⟨passList_ne_nil _, List.suffix_rfl⟩
    frames := by simpa using rootFrame_ok hc
    stack := by simp [StackOk]
    queue := by simp }

theorem start : s.start.Inv := by
  obtain ⟨-, heq⟩ | ⟨-, f, -, heq⟩ | ⟨hb, hc, heq⟩ := start_cases s <;> rw [heq]
  · exact h
  · exact State.BaseOk.raiseFault (s := s.latchStart) { h.baseOk with regs := h.regs.clearForStart } f (by simp)
  · exact h.beginRun hb hc

theorem regWrite (r : Reg) (v : Word) : (s.regWrite r v).Inv := by
  obtain heq | ⟨b, heq⟩ | ⟨b, heq⟩ | heq | ⟨-, hb, heq⟩ := regWrite_cases s r v <;> rw [heq]
  · exact h
  · exact h.setIrqEn b
  · exact (h.setIrqEn b).start
  · exact h.ack v
  · exact h.writeCfg hb v r

/-! ### The steps of the block -/

/-- A node whose read set errs (R291): the address fits the address space. -/
theorem readError (p : Pass) {fr : Frame} {a : Nat} (ha : s.firstError fr = some a) :
    ((s.popNode p fr).raiseFault .mem (BitVec.ofNat 32 a)).Inv := by
  refine State.BaseOk.raiseFault (s := s.popNode p fr) { h.baseOk with } .mem ?_
  rw [BitVec.toNat_ofNat]
  have hlt : a < 2 ^ s.build.addrW := State.firstError_lt ha
  exact Nat.lt_of_le_of_lt (Nat.mod_le ..) hlt

/-- A node step leaves the stack with the node's children in its place, and tokens without an index (R180). -/
theorem node {p : Pass} {fr : Frame} {rest : List Frame} {k : NodeClass} {ts : List Token} (hphase : s.phase = .active)
    (hstack : s.stack = fr :: rest) (hk : k.isSplit = true → classifyNonFlat s.cfg fr = k)
    (hts : ∀ i, Token.idx i ∉ ts) : (((s.popNode p fr).enqueue ts).pushChildren (k.children fr)).Inv := by
  have hbusy := h.busy_of_phase (by simp [hphase])
  obtain ⟨-, hM, -⟩ := configCheck_eq_none_iff.1 (h.cfgChecked hbusy)
  have hframes := hstack ▸ h.frames
  rw [List.forall_mem_cons] at hframes
  exact { h with
    idleEmpty := by simp [hphase]
    waitPending := by simp [hphase]
    frames := by
      simp only [State.pushChildren_stack, State.enqueue_stack, State.popNode_stack, hstack, List.tail_cons, List.mem_append]
      rintro f (hf | hf)
      · exact hframes.1.children (by omega) hk hf
      · exact hframes.2 f hf
    stack := by simpa [hstack] using (hstack ▸ h.stack).pushChildren k
    queue := fun i hi => absurd hi (hts i) }

theorem request {p : Pass} {fr : Frame} {ps : List Pass} {rest : List Frame} (hphase : s.phase = .active)
    (hqueue : s.queue = []) (hpasses : s.passes = p :: ps)
    (hstack : s.stack = fr :: rest) (hk : classifyNonFlat s.cfg fr = .cached) :
    { s.popNode p fr with
      pending := some { frame := fr, head := splitTokens s.cfg, fmt := p, key := keyOf s.cfg.bgra s.P fr p }
      phase := .cacheWait }.Inv := by
  have hbusy := h.busy_of_phase (by simp [hphase])
  have hframes := hstack ▸ h.frames
  rw [List.forall_mem_cons] at hframes
  exact { h with
    phaseBusy := by simp [hbusy]
    idleEmpty := by simp
    activePending := by simp
    waitPending := fun _ => ⟨hqueue, _, rfl,
      { frame := hframes.1, cached := hk, pass := by simp [hpasses], head := rfl, fmt := rfl, w := rfl, h := rfl
        bytes := by simp [keyOf] }⟩
    frames := by simpa [hstack] using hframes.2
    stack := by simpa [hstack] using (hstack ▸ h.stack).tail }

/-- The node that waited is finished: its tokens have no index but the one that fits (R207, R208). -/
theorem resume {pd : Pending} {tail : List Token} (hphase : s.phase = .cacheWait) (hpending : s.pending = some pd)
    (htail : ∀ n, Token.idx n ∈ tail → n < 2 ^ s.cfg.indexbits) : ((s.answered pd).resume (pd.head ++ tail)).Inv := by
  have hbusy := h.busy_of_phase (by simp [hphase])
  obtain ⟨-, pd', hpd', hok⟩ := h.waitPending hphase
  obtain rfl : pd = pd' := by simpa [hpending] using hpd'
  exact { h with
    phaseBusy := by simp [State.resume, State.answered, hbusy]
    idleEmpty := by simp [State.resume]
    activePending := fun _ => rfl
    waitPending := by simp [State.resume]
    queue := fun n hn => by
      rw [State.resume, List.mem_append, hok.head] at hn
      exact htail n (hn.resolve_left (idx_notMem_splitTokens n _)) }

theorem transfer {tok : Token} {q : List Token} (hphase : s.phase = .active) (hqueue : s.queue = tok :: q) :
    (s.transfer tok q).Inv :=
  have hr := h.withRegs (h.regs.count tok.port) (by simp) (by simp) (by simp)
  { hr with
    idleEmpty := by simp [hphase]
    waitPending := by simp [hphase]
    queue := fun i hi => h.queue i (by rw [hqueue]; exact List.mem_cons_of_mem _ hi) }

/-- The pass ends: the root of the next pass, or completion (R183, R184). -/
theorem passEnd (hphase : s.phase = .active) (hqueue : s.queue = []) (hstack : s.stack = []) : s.passEnd.Inv := by
  have hbusy := h.busy_of_phase (by simp [hphase])
  unfold State.passEnd
  split
  · exact State.BaseOk.inv_of_atRest { h.baseOk with regs := h.regs.complete hbusy }
      ⟨rfl, rfl, rfl, hstack, hqueue, h.activePending hphase⟩
  · next p ps htail =>
    exact { h with
      idleEmpty := by simp [hphase]
      waitPending := by simp [hphase]
      passes := fun _ => ⟨by simp, htail ▸ (List.tail_suffix _).trans (h.passes hbusy).2⟩
      frames := by simpa using rootFrame_ok (h.cfgChecked hbusy)
      stack := by simp [StackOk] }

end State.Inv

end Sys2Proof.Machine
end

section
/-! PROOF. The invariant along every step, and what it says of resting and running states (R22 to R42, R178, R280). -/

namespace Sys2Proof.Machine

namespace State.Inv
variable {s t : State} (h : s.Inv)
include h

theorem exec_symbol {k : NodeClass} {i : Instr} (hk : k.symbol = some i) (hexec : exec i s = .next t) : t.Inv := by
  rw [Machine.exec_symbol hk] at hexec
  obtain ⟨p, fr, henabled, ⟨a, ha, rfl⟩ | ⟨-, hclass, rfl⟩⟩ := nodeStep_next hexec
  · exact h.readError p ha
  · obtain ⟨hphase, -, -, rest, hstack⟩ := enabledNode_eq_some.1 henabled
    refine h.node hphase hstack (fun hsplit => ?_) fun i => NodeClass.idx_notMem_tokens i _ _ p fr k
    have hcl : classify s.cfg s.P s.Q fr p = k := hclass
    rw [← hcl]
    apply classifyNonFlat_of_classify <;> rw [hcl] <;> rintro rfl <;> simp [NodeClass.isSplit] at hsplit

theorem sendRequest (hsend : s.sendRequest = .next t) : t.Inv := by
  obtain ⟨p, fr, henabled, ⟨a, ha, rfl⟩ | ⟨-, hclass, rfl⟩⟩ := nodeStep_next hsend
  · exact h.readError p ha
  · obtain ⟨hphase, hqueue, ⟨ps, hpasses⟩, rest, hstack⟩ := enabledNode_eq_some.1 henabled
    have hcl : classify s.cfg s.P s.Q fr p = .cached := hclass
    exact h.request hphase hqueue hpasses hstack
      (hcl ▸ classifyNonFlat_of_classify (by simp [hcl]) (by simp [hcl]))

theorem exec_response {i : Instr} (hi : i = .hit ∨ i = .miss) (hexec : exec i s = .next t) : t.Inv := by
  obtain ⟨pd, hphase, hpending, rfl | ⟨tail, htail, rfl⟩⟩ := exec_response_next hi hexec
  · exact State.BaseOk.raiseFault (s := s.answered pd) { h.baseOk with } .cache (by simp)
  · exact h.resume hphase hpending htail

/-- Every instruction that answers a next state keeps the invariant. -/
theorem exec {i : Instr} (hexec : exec i s = .next t) : t.Inv := by
  obtain ⟨host, rfl⟩ | ⟨r, v, rfl⟩ | ⟨k, hk⟩ | hi := exec_next hexec
  · exact h.of_attached rfl
  · exact (h.regWrite r v).writeDone
  · exact h.exec_symbol hk hexec
  · exact h.exec_response hi hexec

theorem ownStep (hown : ownStep s = .next t) : t.Inv := by
  obtain rfl | ⟨tok, q, hphase, hqueue, -, rfl⟩ | ⟨hphase, hqueue, hstack, rfl⟩ | ⟨i, -, hexec⟩ | ⟨-, hsend⟩ :=
    ownStep_next hown
  · exact h
  · exact h.transfer hphase hqueue
  · exact h.passEnd hphase hqueue hstack
  · exact h.exec hexec
  · exact h.sendRequest hsend

/-- A host write inside the address space keeps memory canonical (R70, R80). -/
theorem hostMemWrite {a : Nat} (ha : a < 2 ^ s.build.addrW) (v : Byte) : (s.hostMemWrite a v).Inv :=
  { h with
    memWf := Memory.write_wf s.mem a v h.memWf
    memSpace := fun c hc => by
      obtain ⟨rfl, -⟩ | hc := Memory.mem_write hc
      · exact ha
      · exact h.memSpace c hc }

theorem assertReset : s.assertReset.Inv :=
  State.BaseOk.inv_of_atRest { h.baseOk with regs := Regs.reset_ok _ } ⟨rfl, rfl, rfl, rfl, rfl, rfl⟩

theorem runEvent {e : Event} (hrun : runEvent e s = .next t) : t.Inv := by
  obtain ⟨i, hexec⟩ | hown | rfl | ⟨a, v, ha, rfl⟩ | hattached := runEvent_next hrun
  · exact h.exec hexec
  · exact h.ownStep hown
  · exact h.assertReset
  · exact h.hostMemWrite ha v
  · exact h.of_attached hattached

end State.Inv

/-- Settles O39: each event and each step of the block keeps the invariant. -/
theorem everyStepKeepsTheInvariant : Obligations.EveryStepKeepsTheInvariant := by
  unfold Obligations.EveryStepKeepsTheInvariant
  intro s t h hstep
  rcases hsched : s.schedule with _ | ⟨e, rest⟩
  · rw [step_of_schedule_nil hsched] at hstep
    exact h.ownStep hstep
  · rw [step_of_schedule_cons hsched] at hstep
    exact State.Inv.runEvent (s := { s with schedule := rest }) { h with } hstep

/-- Settles O38: right after reset the machine rests, its registers 0 and its memory empty. -/
theorem resetMeetsTheInvariant : Obligations.ResetMeetsTheInvariant := by
  unfold Obligations.ResetMeetsTheInvariant
  exact State.BaseOk.inv_of_atRest
    { build := by decide, memWf := reset_mem_wf, memSpace := by simp [State.reset], regs := Regs.reset_ok _ }
    ⟨rfl, rfl, rfl, rfl, rfl, rfl⟩

/-- Settles O40: the depths of the frames are bounded by the root's halvings, and the frames under one by its depth. -/
theorem stackIsBounded : Obligations.StackIsBounded := by
  unfold Obligations.StackIsBounded
  intro s h hbusy
  obtain ⟨-, -, -, -, -, hdepth, -⟩ := configCheck_eq_none_iff.1 (h.cfgChecked hbusy)
  have hframe : ∀ fr ∈ s.stack, fr.d ≤ dMax s.cfg := fun fr hfr =>
    le_min (h.frames fr hfr).depth (le_trans (Nat.le_add_right ..) (h.frames fr hfr).halvings)
  exact ⟨h.stack.length_le hframe, Nat.not_lt.1 hdepth, hframe⟩

/-- Settles O46: a run has no outcome, no code and no fault address for an ACK to clear. -/
theorem runningMeansNoOutcome : Obligations.RunningMeansNoOutcome := by
  unfold Obligations.RunningMeansNoOutcome
  intro s h
  refine ⟨h.regs.notBoth, fun hbusy => ?_⟩
  obtain ⟨hdone, hfault⟩ := h.regs.busyClear hbusy
  have hcode : s.regs.errcode = 0 := by simpa [hfault] using h.regs.errcodeFault
  have haddr : s.regs.faultAddr = 0 := h.regs.faultAddrMem (by simp [hcode])
  exact ⟨by simp [State.irq, hdone, hfault], fun v => by
    simp [exec_ack, State.ack, State.writeDone, Regs.acknowledge_of_clear hdone hfault hcode haddr]⟩

end Sys2Proof.Machine
end

section
/-! PROOF. The words of the register window: their fields, what a write stores and what it leaves (R22, R23, R130, R131). -/

namespace Sys2Proof.Machine

/-- The number of two bit patterns set side by side. -/
theorem toNat_append_eq_add {m n : Nat} (x : BitVec m) (y : BitVec n) : (x ++ y).toNat = x.toNat * 2 ^ n + y.toNat := by
  rw [BitVec.toNat_append, ← Nat.shiftLeft_add_eq_or_of_lt y.isLt, Nat.shiftLeft_eq]

theorem Regs.statusWord_toNat (r : Regs) : r.statusWord.toNat =
    r.busy.toNat + 2 * r.done.toNat + 4 * r.fault.toNat + 256 * r.errcode.toNat + 65536 * r.keyframe.toNat := by
  simp only [Regs.statusWord, toNat_append_eq_add, BitVec.toNat_ofBool, BitVec.toNat_ofNat]
  omega

theorem Regs.modeWord_toNat (r : Regs) : r.modeWord.toNat =
    r.colordiff.toNat + 4 * r.bgra.toNat + 8 * r.refEn.toNat + 16 * r.cacheEn.toNat + 256 * r.indexbits.toNat := by
  simp only [Regs.modeWord, toNat_append_eq_add, BitVec.toNat_ofBool, BitVec.toNat_ofNat]
  omega

theorem Regs.ctrlWord_toNat (r : Regs) : r.ctrlWord.toNat = 2 * r.irqEn.toNat := by
  simp only [Regs.ctrlWord, toNat_append_eq_add, BitVec.toNat_ofBool, BitVec.toNat_ofNat]
  omega

/-- Settles O13: each word is the number of its fields set side by side, and the invariant bounds those of a build's width. -/
theorem readWordsHaveTheFieldLayout : Obligations.ReadWordsHaveTheFieldLayout := by
  unfold Obligations.ReadWordsHaveTheFieldLayout
  refine ⟨fun r => ⟨r.statusWord_toNat, r.modeWord_toNat, r.ctrlWord_toNat, ?_, ?_,
    rfl, rfl, rfl, rfl, rfl, rfl, rfl, rfl, rfl, rfl, rfl⟩, fun s h => ⟨?_, ?_⟩⟩
  · exact BitVec.toNat_setWidth_of_le (by decide)
  · exact BitVec.toNat_setWidth_of_le (by decide)
  · rintro r (rfl | rfl | rfl)
    exacts [h.regs.width, h.regs.height, h.regs.minsize]
  · rintro r (rfl | rfl | rfl)
    exacts [h.regs.imgBase, h.regs.refBase, h.regs.faultAddr]

/-- The low bits are those under a mask of ones, whatever the width (R23). -/
theorem lowBits_eq_and (n : Nat) (v : Word) : lowBits n v = BitVec.ofNat 32 (2 ^ n - 1) &&& v := by
  rw [lowBits, ← Nat.and_two_pow_sub_one_eq_mod, BitVec.ofNat_and, BitVec.ofNat_toNat, BitVec.setWidth_eq, BitVec.and_comm]

/-- An 8-bit field at bit 0 keeps the low byte (R23). -/
theorem setWidth_extractLsb'_eq_lowBits (v : Word) : (v.extractLsb' 0 8).setWidth 32 = lowBits 8 v := by
  apply BitVec.eq_of_toNat_eq
  simp [lowBits]

/-- MODE keeps the bits of its five fields (R22). -/
theorem Regs.modeWord_writeCfg (b : Build) (r : Regs) (v : Word) : (r.writeCfg b v .mode).modeWord = 0x00003F1F#32 &&& v := by
  have h : (r.writeCfg b v .mode).modeWord =
    (0#18 ++ v.extractLsb' 8 6 ++ 0#3 ++ BitVec.ofBool (v.getLsbD 4) ++ BitVec.ofBool (v.getLsbD 3) ++
      BitVec.ofBool (v.getLsbD 2) ++ v.extractLsb' 0 2 : BitVec (18 + 6 + 3 + 1 + 1 + 1 + 2)) := rfl
  apply BitVec.eq_of_getLsbD_eq
  intro i hi
  rw [h]
  simp only [BitVec.getLsbD_append, BitVec.getLsbD_extractLsb', BitVec.getLsbD_and]
  interval_cases i <;> simp

/-- What a configuration register reads as once `v` is written to it (R23, R130). -/
theorem Regs.read_writeCfg_same (b : Build) (r : Regs) (v : Word) {reg : Reg} (h : reg.isConfig = true) :
    (r.writeCfg b v reg).read reg = (reg.cfgMask b &&& v) := by
  cases reg
  case width => exact lowBits_eq_and ..
  case height => exact lowBits_eq_and ..
  case minsize => exact lowBits_eq_and ..
  case imgBase => exact lowBits_eq_and ..
  case refBase => exact lowBits_eq_and ..
  case maxdepth => exact (setWidth_extractLsb'_eq_lowBits v).trans (lowBits_eq_and 8 v)
  case lazyness => exact (setWidth_extractLsb'_eq_lowBits v).trans (lowBits_eq_and 8 v)
  case mode => exact Regs.modeWord_writeCfg b r v
  case transform => exact (BitVec.allOnes_and (x := v)).symm
  all_goals simp [Reg.isConfig] at h

/-- A write to one register leaves what every other reads as (R130). -/
theorem Regs.read_writeCfg_other (b : Build) (r : Regs) (v : Word) {reg reg' : Reg} (h : reg' ≠ reg) :
    (r.writeCfg b v reg).read reg' = r.read reg' := by
  cases reg <;> cases reg' <;> trivial

theorem Regs.reset_read (reg : Reg) : Regs.reset.read reg = 0 := by cases reg <;> decide

theorem regAt_of_aligned {off : BitVec 6} (h : alignedOffset off = true) : ∃ r, regAt off = some r :=
  Option.isSome_iff_exists.1 ((regAt_isSome off).trans h)

theorem regAt_of_unaligned {off : BitVec 6} (h : alignedOffset off = false) : regAt off = none := by
  rw [← Option.isNone_iff_eq_none, ← Option.not_isSome, regAt_isSome, h, Bool.not_false]

/-! ### Host accesses -/

/-- Settles O8: the write stores the masked value in the register it names and touches no other word. -/
theorem regwrStoresTheFieldBits : Obligations.RegwrStoresTheFieldBits := by
  unfold Obligations.RegwrStoresTheFieldBits
  intro s off v r hat hr hbusy
  refine ⟨_, exec_regwr hat v s, ?_⟩
  rw [regWrite_config_idle hr hbusy]
  exact ⟨Regs.read_writeCfg_same _ _ v hr, fun r' hne => Regs.read_writeCfg_other _ _ v hne, ⟨rfl, fun _ => rfl⟩, rfl⟩

/-- Settles O9: such a write leaves the block as it is, and the bus shows no error. -/
theorem regwrIgnoredWrites : Obligations.RegwrIgnoredWrites := by
  unfold Obligations.RegwrIgnoredWrites
  intro s off v r hat hignored
  have hsame : s.regWrite r v = s := by
    obtain ⟨hr, hbusy⟩ | hr := hignored
    · exact regWrite_config_busy hr hbusy v
    · exact regWrite_ignored hr s v
  rw [exec_regwr hat, hsame, State.writeDone]

/-- Settles O10: CTRL's bit 0 decides between IRQ_EN alone and START; STATUS is ACK's register. -/
theorem regwrCtrlAndStatus : Obligations.RegwrCtrlAndStatus := by
  unfold Obligations.RegwrCtrlAndStatus
  have hctrl : regAt 0x00 = some .ctrl := rfl
  have hstatus : regAt 0x04 = some .status := rfl
  refine ⟨fun s v hv => ?_, fun s v hv => ?_, fun s v => ?_⟩
  · refine ⟨_, exec_regwr hctrl v s, ?_⟩
    rw [regWrite_ctrl_irqEn hv]
    exact ⟨rfl, rfl, ⟨rfl, fun _ => rfl⟩, rfl⟩
  · rw [exec_regwr hctrl, regWrite_ctrl_start hv, exec_start]
  · rw [exec_regwr hstatus, regWrite_status, exec_ack]

/-- Settles O12: the aligned offsets are the sixteen that name a register. -/
theorem regrdReturnsTheRegister : Obligations.RegrdReturnsTheRegister := by
  unfold Obligations.RegrdReturnsTheRegister
  refine ⟨fun s off data halign => ?_, by decide, fun off => regAt_of_unaligned⟩
  obtain ⟨r, hat⟩ := regAt_of_aligned halign
  exact ⟨r, hat, exec_regrd hat data s⟩

/-- Settles O20: a register reads 0 after reset, and a refused read returns 0. -/
theorem afterResetEveryOffsetReadsZero : Obligations.AfterResetEveryOffsetReadsZero := by
  unfold Obligations.AfterResetEveryOffsetReadsZero
  refine ⟨rfl, fun off data => ?_⟩
  rcases hat : regAt off with _ | r
  · exact ⟨_, exec_regrd_unaligned hat data _, rfl⟩
  · exact ⟨_, exec_regrd hat data _, Regs.reset_read r⟩

/-! ### Reset -/

/-- What reset leaves of the cache: the state before the outstanding request, or the one after it (R321). -/
theorem assertReset_cache (s : State) : s.assertReset.cache = s.cache ∨
    ∃ pd, s.pending = some pd ∧ s.assertReset.cache = (cacheLookup s.cache pd.key).1 := by
  unfold State.assertReset
  rcases hpending : s.pending with _ | pd
  · exact .inl rfl
  · rcases hbit : Config.freeBit s.freeCtr with _ | _
    · exact .inl rfl
    · exact .inr ⟨pd, rfl, rfl⟩

/-- Settles O21: the step is reset's, whose fields are those of the machine after reset but for what the block is attached to. -/
theorem resetRestoresTheBlock : Obligations.ResetRestoresTheBlock := by
  unfold Obligations.ResetRestoresTheBlock
  intro s rest hsched
  exact ⟨State.assertReset { s with schedule := rest }, step_of_schedule_cons hsched, Regs.reset_read,
    rfl, rfl, rfl, rfl, rfl, rfl, rfl, rfl, fun _ => rfl, rfl, rfl, assertReset_cache { s with schedule := rest }⟩

end Sys2Proof.Machine
end

section
/-! PROOF. While a run goes on, its configuration stays (R38, R83, R326). -/

namespace Sys2Proof.Machine

/-- `cfg` and what every configuration register reads as are those of `s` (R38). -/
def SameConfig (s t : State) : Prop := t.cfg = s.cfg ∧ ∀ r : Reg, r.isConfig = true → t.regs.read r = s.regs.read r

theorem SameConfig.refl (s : State) : SameConfig s s := ⟨rfl, fun _ _ => rfl⟩

theorem SameConfig.of_regs_eq {s t : State} (hcfg : t.cfg = s.cfg) (hregs : t.regs = s.regs) : SameConfig s t :=
  ⟨hcfg, fun _ _ => by rw [hregs]⟩

theorem Regs.read_irqEn {reg : Reg} (h : reg.isConfig = true) (r : Regs) (e : Bool) :
    ({ r with irqEn := e } : Regs).read reg = r.read reg := by
  cases reg <;> trivial

theorem Regs.read_acknowledge {reg : Reg} (h : reg.isConfig = true) (r : Regs) (v : Word) :
    (r.acknowledge v).read reg = r.read reg := by
  rw [Regs.acknowledge_eq]
  cases reg <;> trivial

theorem Regs.read_count {reg : Reg} (h : reg.isConfig = true) (r : Regs) (p : Port) : (r.count p).read reg = r.read reg := by
  cases p <;> cases reg <;> trivial

theorem sameConfig_setIrqEn (s : State) (e : Bool) : SameConfig s (s.setIrqEn e) :=
  ⟨rfl, fun _ hr => Regs.read_irqEn hr s.regs e⟩

theorem sameConfig_ack (s : State) (v : Word) : SameConfig s (s.ack v) := ⟨rfl, fun _ hr => Regs.read_acknowledge hr s.regs v⟩

/-- START changes nothing while a run goes on (R134). -/
theorem start_of_busy {s : State} (h : s.regs.busy = true) : s.start = s := by
  simp [State.start, h]

theorem sameConfig_regWrite {s : State} (hbusy : s.regs.busy = true) (r : Reg) (v : Word) : SameConfig s (s.regWrite r v) := by
  obtain heq | ⟨e, heq⟩ | ⟨e, heq⟩ | heq | ⟨-, hidle, -⟩ := regWrite_cases s r v
  · rw [heq]
    exact .refl s
  · rw [heq]
    exact sameConfig_setIrqEn s e
  · rw [heq, start_of_busy (s := s.setIrqEn e) hbusy]
    exact sameConfig_setIrqEn s e
  · rw [heq]
    exact sameConfig_ack s v
  · simp [hidle] at hbusy

section
variable {s t : State} (hbusy : t.regs.busy = true)
include hbusy

/-- A node step that does not end the run leaves the configuration. -/
theorem sameConfig_nodeStep {want : NodeClass} {act : Pass → Frame → State → State} (h : s.nodeStep want act = .next t)
    (hact : ∀ p fr, (act p fr (s.popNode p fr)).cfg = s.cfg ∧ (act p fr (s.popNode p fr)).regs = s.regs) : SameConfig s t := by
  obtain ⟨p, fr, -, ⟨a, -, rfl⟩ | ⟨-, -, rfl⟩⟩ := nodeStep_next h
  · simp at hbusy
  · exact .of_regs_eq (hact p fr).1 (hact p fr).2

theorem sameConfig_exec {i : Instr} (hs : s.regs.busy = true) (h : exec i s = .next t) : SameConfig s t := by
  obtain ⟨host, rfl⟩ | ⟨r, v, rfl⟩ | ⟨k, hk⟩ | hi := exec_next h
  · exact .of_regs_eq rfl rfl
  · exact sameConfig_regWrite hs r v
  · rw [exec_symbol hk] at h
    exact sameConfig_nodeStep hbusy h fun _ _ => ⟨rfl, rfl⟩
  · obtain ⟨pd, -, -, rfl | ⟨tail, -, rfl⟩⟩ := exec_response_next hi h
    · simp at hbusy
    · exact .of_regs_eq rfl rfl

theorem sameConfig_ownStep (hs : s.regs.busy = true) (h : ownStep s = .next t) : SameConfig s t := by
  obtain rfl | ⟨tok, q, -, -, -, rfl⟩ | ⟨-, -, -, rfl⟩ | ⟨i, -, hexec⟩ | ⟨-, hsend⟩ := ownStep_next h
  · exact .refl _
  · exact ⟨rfl, fun _ hr => Regs.read_count hr s.regs tok.port⟩
  · unfold State.passEnd at hbusy ⊢
    split at hbusy
    · simp at hbusy
    · exact .of_regs_eq rfl rfl
  · exact sameConfig_exec hbusy hs hexec
  · exact sameConfig_nodeStep hbusy hsend fun _ _ => ⟨rfl, rfl⟩

theorem sameConfig_runEvent {e : Event} (hs : s.regs.busy = true) (h : runEvent e s = .next t) : SameConfig s t := by
  obtain ⟨i, hexec⟩ | hown | rfl | ⟨a, v, -, rfl⟩ | hattached := runEvent_next h
  · exact sameConfig_exec hbusy hs hexec
  · exact sameConfig_ownStep hbusy hs hown
  · simp [Regs.reset] at hbusy
  · exact .of_regs_eq rfl rfl
  · rw [hattached]
    exact .of_regs_eq rfl rfl

end

/-- Settles O43: only START writes `cfg`, only a write with BUSY = 0 a configuration register, and reset ends the run. -/
theorem configurationIsFixedDuringARun : Obligations.ConfigurationIsFixedDuringARun := by
  unfold Obligations.ConfigurationIsFixedDuringARun
  intro s t hstep hs ht
  rcases hsched : s.schedule with _ | ⟨e, rest⟩
  · rw [step_of_schedule_nil hsched] at hstep
    exact sameConfig_ownStep ht hs hstep
  · rw [step_of_schedule_cons hsched] at hstep
    exact sameConfig_runEvent (s := { s with schedule := rest }) ht hs hstep

end Sys2Proof.Machine
end

section
/-! PROOF. Where the pixels of a checked configuration lie (R71, R74, R189, R290), and that a node reads nothing else. -/

namespace Sys2Proof.Machine

/-- `AddrOk` (R282, R290): the base is 4-byte aligned and the region ends inside the address space. -/
theorem addrOk_iff {b : Build} {c : RunCfg} {base : Nat} :
    addrOk b c base = true ↔ base % 4 = 0 ∧ base + 4 * c.W * c.H ≤ 2 ^ b.addrW := by
  simp [addrOk]

/-- A checked configuration has both its regions in place (R290). -/
theorem addrOk_of_configCheck {b : Build} {c : RunCfg} (h : configCheck b c = none) :
    addrOk b c c.imgBase = true ∧ (c.refEn = true → addrOk b c c.refBase = true) := by
  obtain ⟨-, -, -, -, -, -, haddr⟩ := configCheck_eq_none_iff.1 h
  simpa using haddr

/-- The four bytes of a pixel of the image end inside its region (R71). -/
theorem pixelOffset_lt {W H x y : Nat} (hx : x < W) (hy : y < H) : 4 * (y * W + x) + 3 < 4 * W * H := by
  have hrow : (y + 1) * W ≤ H * W := Nat.mul_le_mul_right W hy
  have hcomm : 4 * W * H = 4 * (H * W) := by ring
  rw [Nat.succ_mul] at hrow
  omega

/-- The modulus of a pixel address has no effect in a region that lies in the address space (R189; log entry 21). -/
theorem pixelAddr_of_addrOk {b : Build} {c : RunCfg} {base x y : Nat} (h : addrOk b c base = true) (hx : x < c.W)
    (hy : y < c.H) : pixelAddr b c.W base x y = base + 4 * (y * c.W + x) := by
  obtain ⟨-, hspace⟩ := addrOk_iff.1 h
  have hoffset := pixelOffset_lt hx hy
  exact Nat.mod_eq_of_lt (by omega)

/-- A pixel's address is 4-byte aligned, and its four bytes lie in the region and in the address space (R74, R290). -/
theorem pixelAddr_bounds {b : Build} {c : RunCfg} {base x y : Nat} (h : addrOk b c base = true) (hx : x < c.W)
    (hy : y < c.H) :
    pixelAddr b c.W base x y % 4 = 0 ∧ pixelAddr b c.W base x y + 3 < 2 ^ b.addrW ∧
      base ≤ pixelAddr b c.W base x y ∧ pixelAddr b c.W base x y + 3 < base + 4 * c.W * c.H := by
  obtain ⟨haligned, hspace⟩ := addrOk_iff.1 h
  have hoffset := pixelOffset_lt hx hy
  rw [pixelAddr_of_addrOk h hx hy]
  omega

/-- A node reads pixels of its own region, of the image or, with a reference, of the reference (R181). -/
theorem State.mem_readSet {s : State} {fr : Frame} {a : Nat} (h : a ∈ s.readSet fr) :
    ∃ x y, (x, y) ∈ rowMajor fr ∧
      (a = pixelAddr s.build s.cfg.W s.cfg.imgBase x y ∨
        (s.cfg.refEn = true ∧ a = pixelAddr s.build s.cfg.W s.cfg.refBase x y)) := by
  unfold State.readSet at h
  split at h
  · simp at h
  · rw [List.mem_append] at h
    obtain himg | href := h
    · obtain ⟨⟨x, y⟩, hxy, rfl⟩ := List.mem_map.1 himg
      exact ⟨x, y, hxy, .inl rfl⟩
    · split at href
      · next hen =>
        obtain ⟨⟨x, y⟩, hxy, rfl⟩ := List.mem_map.1 href
        exact ⟨x, y, hxy, .inr ⟨hen.1, rfl⟩⟩
      · simp at href

/-- Settles O34: the modulus has no effect, and with nothing written during the run a read gives memory's four bytes. -/
theorem pixelsReadTheirFourBytes : Obligations.PixelsReadTheirFourBytes := by
  unfold Obligations.PixelsReadTheirFourBytes
  intro s x y hcheck hstable hx hy
  obtain ⟨himg, href⟩ := addrOk_of_configCheck hcheck
  have hread : ∀ base, addrOk s.build s.cfg base = true →
      s.pixelAt (pixelAddr s.build s.cfg.W base x y) = fourBytes s.mem (base + 4 * (y * s.cfg.W + x)) := fun base hbase => by
    rw [pixelAt_of_unstable_nil hstable, pixelAddr_of_addrOk hbase hx hy]
  exact ⟨hread _ himg, fun hen => hread _ (href hen)⟩

/-- Settles O48: a frame of a run lies in the image, and every pixel of the image in its region. -/
theorem readsStayInsideTheImages : Obligations.ReadsStayInsideTheImages := by
  unfold Obligations.ReadsStayInsideTheImages
  intro s fr a hinv hbusy hfr ha
  obtain ⟨himg, href⟩ := addrOk_of_configCheck (hinv.cfgChecked hbusy)
  have hok := hinv.frames fr hfr
  obtain ⟨x, y, hxy, hpixel⟩ := State.mem_readSet ha
  obtain ⟨⟨-, hx⟩, -, hy⟩ := mem_rowMajor.1 hxy
  have hxW : x < s.cfg.W := Nat.lt_of_lt_of_le hx hok.inW
  have hyH : y < s.cfg.H := Nat.lt_of_lt_of_le hy hok.inH
  obtain rfl | ⟨hen, rfl⟩ := hpixel
  · obtain ⟨haligned, hspace, hlow, hhigh⟩ := pixelAddr_bounds himg hxW hyH
    exact ⟨haligned, hspace, .inl ⟨hlow, hhigh⟩⟩
  · obtain ⟨haligned, hspace, hlow, hhigh⟩ := pixelAddr_bounds (href hen) hxW hyH
    exact ⟨haligned, hspace, .inr ⟨hen, hlow, hhigh⟩⟩

end Sys2Proof.Machine
end

section
/-! PROOF. A host write of pixel memory, and what pixel reads give after it and after the next START (R72, R79, R80, R325). -/

namespace Sys2Proof.Machine

/-- A write inside the address space is the event's whole effect (R80). -/
theorem runEvent_memWrite {s : State} {a : Nat} (h : a < 2 ^ s.build.addrW) (v : Byte) :
    runEvent (.memWrite a v) s = .next (s.hostMemWrite a v) :=
  if_pos h

/-- A pixel read takes its bytes from its own four addresses alone (R72). -/
theorem fourBytes_congr {m m' : Memory} {q : Nat}
    (h : ∀ b, q ≤ b → b ≤ q + 3 → Memory.read m b = Memory.read m' b) : fourBytes m q = fourBytes m' q := by
  simp only [fourBytes, Pixel.mk.injEq]
  exact ⟨h _ (by omega) (by omega), h _ (by omega) (by omega), h _ (by omega) (by omega), h _ (by omega) (by omega)⟩

/-- A read none of whose four bytes was written during the run is not affected (R325). -/
theorem affected_eq_false {s : State} {q : Nat} (h : ∀ b ∈ s.unstable, b < q ∨ q + 3 < b) : s.affected q = false := by
  rw [← Bool.not_eq_true, affected_iff]
  rintro ⟨b, hb, hlow, hhigh⟩
  have := h b hb
  omega

section
variable {s : State} {a : Nat} {v : Byte}

/-- A byte written into a region during a run makes every read of its pixel free (R325). -/
theorem pixelAt_hostMemWrite_free (hbusy : s.regs.busy = true) (hin : s.inRegions a = true) {q : Nat} (hlow : q ≤ a)
    (hhigh : a ≤ q + 3) : (s.hostMemWrite a v).pixelAt q = Config.freePixel (s.hostMemWrite a v).freeCtr q :=
  pixelAt_affected (affected_iff.2 ⟨a, mem_hostMemWrite_unstable.2 (.inr ⟨rfl, hbusy, hin⟩), hlow, hhigh⟩)

/-- With no run, or outside the regions, a write makes no read unspecified (R79, R80). -/
theorem hostMemWrite_unstable_of_ordinary (h : s.regs.busy = false ∨ s.inRegions a = false) :
    (s.hostMemWrite a v).unstable = s.unstable := by
  obtain h | h := h <;> simp [State.hostMemWrite, h]

/-- A read that does not take in the written byte is affected exactly when it was before. -/
theorem affected_hostMemWrite_other {q : Nat} (h : a < q ∨ q + 3 < a) : (s.hostMemWrite a v).affected q = s.affected q := by
  rw [Bool.eq_iff_iff, affected_iff, affected_iff]
  refine exists_congr fun b => and_congr_left fun hb => ?_
  rw [mem_hostMemWrite_unstable]
  exact or_iff_left fun hba => by omega

/-- A read that does not take in the written byte gives what it gave before (R72, R325). -/
theorem pixelAt_hostMemWrite_other {q : Nat} (h : a < q ∨ q + 3 < a) : (s.hostMemWrite a v).pixelAt q = s.pixelAt q := by
  have hbytes : fourBytes (s.hostMemWrite a v).mem q = fourBytes s.mem q :=
    fourBytes_congr fun b _ _ => Memory.read_write_other s.mem a b v (by omega)
  rw [State.pixelAt, affected_hostMemWrite_other h, hbytes]
  rfl

end

/-- An accepted START, whether a run begins or a configuration fault ends it, forgets what was written before (R132, R325). -/
theorem start_unstable_of_idle {s : State} (h : s.regs.busy = false) : s.start.unstable = [] := by
  obtain ⟨hbusy, -⟩ | ⟨-, f, -, heq⟩ | ⟨-, -, heq⟩ := start_cases s
  · simp [h] at hbusy
  · rw [heq]
    rfl
  · rw [heq]
    rfl

@[simp] theorem State.start_mem (s : State) : s.start.mem = s.mem := by
  obtain ⟨-, heq⟩ | ⟨-, f, -, heq⟩ | ⟨-, -, heq⟩ := start_cases s <;> rw [heq] <;> rfl

/-- Settles O35: the write's effect on memory and on the list of unstable bytes, which START empties. -/
theorem hostWritesAreReadBack : Obligations.HostWritesAreReadBack := by
  unfold Obligations.HostWritesAreReadBack
  refine ⟨fun s a v rest hwf ha hsched => ?_, fun u w r e hidle hexec q => ?_⟩
  · refine ⟨State.hostMemWrite { s with schedule := rest } a v,
      (step_of_schedule_cons hsched).trans (runEvent_memWrite (s := { s with schedule := rest }) ha v), rfl,
      Memory.write_wf s.mem a v hwf, Memory.read_write_same s.mem a v hwf, fun b hb => Memory.read_write_other s.mem a b v hb,
      fun hbusy hin q => pixelAt_hostMemWrite_free hbusy hin, fun hord => ?_, fun q => pixelAt_hostMemWrite_other⟩
    have hkept : (State.hostMemWrite { s with schedule := rest } a v).unstable = s.unstable :=
      hostMemWrite_unstable_of_ordinary hord
    exact ⟨hkept, fun q hq => pixelAt_unaffected (affected_eq_false (by rwa [hkept]))⟩
  · obtain rfl := Host.Outcome.next.inj hexec
    have hempty : (u.setIrqEn e).start.writeDone.unstable = [] := start_unstable_of_idle (s := u.setIrqEn e) hidle
    rw [pixelAt_of_unstable_nil hempty]
    simp

end Sys2Proof.Machine
end

section
/-! PROOF. What writes pixel memory, and what asks and changes the cache (R76, R205, R209, R241). -/

namespace Sys2Proof.Machine

@[simp] theorem State.start_cache (s : State) : s.start.cache = s.cache := by
  obtain ⟨-, heq⟩ | ⟨-, f, -, heq⟩ | ⟨-, -, heq⟩ := start_cases s <;> rw [heq] <;> rfl

@[simp] theorem State.regWrite_mem (s : State) (r : Reg) (v : Word) : (s.regWrite r v).mem = s.mem := by
  obtain heq | ⟨b, heq⟩ | ⟨b, heq⟩ | heq | ⟨-, -, heq⟩ := regWrite_cases s r v <;> simp [heq]

@[simp] theorem State.regWrite_cache (s : State) (r : Reg) (v : Word) : (s.regWrite r v).cache = s.cache := by
  obtain heq | ⟨b, heq⟩ | ⟨b, heq⟩ | heq | ⟨-, -, heq⟩ := regWrite_cases s r v <;> simp [heq]

/-- No host write makes an ACTIVE block wait for the cache (R130, R132). -/
theorem regWrite_phase_of_active {s : State} (h : s.phase = .active) (r : Reg) (v : Word) :
    (s.regWrite r v).phase ≠ .cacheWait := by
  obtain heq | ⟨b, heq⟩ | ⟨b, heq⟩ | heq | ⟨-, -, heq⟩ := regWrite_cases s r v
  · simp [heq, h]
  · simp [heq, h]
  · obtain ⟨-, hstart⟩ | ⟨-, f, -, hstart⟩ | ⟨-, -, hstart⟩ := start_cases (s.setIrqEn b) <;> simp [heq, hstart, h]
  · simp [heq, h]
  · simp [heq, h]

@[simp] theorem State.passEnd_mem (s : State) : s.passEnd.mem = s.mem := by
  unfold State.passEnd
  split <;> rfl

/-- The pass end leaves the block ACTIVE or IDLE (R183, R184). -/
theorem passEnd_phase_of_active {s : State} (h : s.phase = .active) : s.passEnd.phase ≠ .cacheWait := by
  unfold State.passEnd
  split <;> simp [h]

section
variable {s t : State} {i : Instr}

/-- A node step that finishes a symbol leaves memory and the cache, and does not wait (R180, R283). -/
theorem exec_symbol_frame {k : NodeClass} (hk : k.symbol = some i) (h : exec i s = .next t) :
    t.mem = s.mem ∧ t.cache = s.cache ∧ t.phase ≠ .cacheWait := by
  rw [exec_symbol hk] at h
  obtain ⟨p, fr, henabled, ⟨a, -, rfl⟩ | ⟨-, -, rfl⟩⟩ := nodeStep_next h
  · simp
  · obtain ⟨hphase, -⟩ := enabledNode_eq_some.1 henabled
    simp [hphase]

/-- The request changes neither memory nor the cache (R180, R230). -/
theorem sendRequest_frame (h : s.sendRequest = .next t) : t.mem = s.mem ∧ t.cache = s.cache := by
  obtain ⟨p, fr, -, ⟨a, -, rfl⟩ | ⟨-, -, rfl⟩⟩ := nodeStep_next h <;> exact ⟨rfl, rfl⟩

/-- No instruction writes memory (R76). -/
theorem exec_mem (h : exec i s = .next t) : t.mem = s.mem := by
  obtain ⟨host, rfl⟩ | ⟨r, v, rfl⟩ | ⟨k, hk⟩ | hi := exec_next h
  · rfl
  · simp
  · exact (exec_symbol_frame hk h).1
  · obtain ⟨pd, -, -, rfl | ⟨tail, -, rfl⟩⟩ := exec_response_next hi h <;> rfl

/-- No instruction but HIT and MISS changes the cache (R241). -/
theorem exec_cache (h : exec i s = .next t) (hhit : i ≠ .hit) (hmiss : i ≠ .miss) : t.cache = s.cache := by
  obtain ⟨host, rfl⟩ | ⟨r, v, rfl⟩ | ⟨k, hk⟩ | hi := exec_next h
  · rfl
  · simp
  · obtain ⟨-, hcache, -⟩ := exec_symbol_frame hk h
    exact hcache
  · exact absurd hi (by simp [hhit, hmiss])

/-- No instruction makes an ACTIVE block wait for the cache: only sending the request does (R180, R209). -/
theorem exec_phase_of_active (h : exec i s = .next t) (hphase : s.phase = .active) : t.phase ≠ .cacheWait := by
  obtain ⟨host, rfl⟩ | ⟨r, v, rfl⟩ | ⟨k, hk⟩ | hi := exec_next h
  · simp [hphase]
  · exact regWrite_phase_of_active hphase r v
  · obtain ⟨-, -, hne⟩ := exec_symbol_frame hk h
    exact hne
  · obtain ⟨pd, hwait, -⟩ := exec_response_next hi h
    simp [hphase] at hwait

/-- No step of the block writes memory (R76). -/
theorem ownStep_mem (h : ownStep s = .next t) : t.mem = s.mem := by
  obtain rfl | ⟨tok, q, -, -, -, rfl⟩ | ⟨-, -, -, rfl⟩ | ⟨i, -, hexec⟩ | ⟨-, hsend⟩ := ownStep_next h
  · rfl
  · rfl
  · simp
  · exact exec_mem hexec
  · exact (sendRequest_frame hsend).1

/-- Only the host's own write changes memory (R76, R80). -/
theorem runEvent_mem {e : Event} (he : ∀ a v, e ≠ .memWrite a v) (h : runEvent e s = .next t) : t.mem = s.mem := by
  cases e with
  | access w => exact exec_mem h
  | own => exact ownStep_mem h
  | memWrite a v => exact absurd rfl (he a v)
  | oddWidthAccess write =>
    obtain rfl := Host.Outcome.next.inj h
    cases write <;> rfl
  | reset | setReady | setCacheReady | cacheLoad | drainSinks =>
    obtain rfl := Host.Outcome.next.inj h
    rfl

/-- The step of the block that begins to wait is the request (R180, R205). -/
theorem ownStep_waits (h : ownStep s = .next t) (hphase : s.phase = .active) (hwait : t.phase = .cacheWait) :
    s.sendRequest = .next t := by
  obtain rfl | ⟨tok, q, -, -, -, rfl⟩ | ⟨-, -, -, rfl⟩ | ⟨i, -, hexec⟩ | ⟨-, hsend⟩ := ownStep_next h
  · simp [hphase] at hwait
  · simp [hphase] at hwait
  · exact absurd hwait (passEnd_phase_of_active hphase)
  · exact absurd hwait (exec_phase_of_active hexec hphase)
  · exact hsend

/-- Whatever the event, a block begins to wait by sending the request. -/
theorem runEvent_waits {e : Event} (h : runEvent e s = .next t) (hphase : s.phase = .active) (hwait : t.phase = .cacheWait) :
    s.sendRequest = .next t := by
  obtain ⟨i, hexec⟩ | hown | rfl | ⟨a, v, -, rfl⟩ | hattached := runEvent_next h
  · exact absurd hwait (exec_phase_of_active hexec hphase)
  · exact ownStep_waits hown hphase hwait
  · simp at hwait
  · exact absurd (hphase.symm.trans hwait) (by simp)
  · rw [hattached] at hwait
    exact absurd (hphase.symm.trans hwait) (by simp)

/-- A frame whose node is CACHED: below the ceiling, neither extent above `M`, with CACHE_EN = 1 (R175, R205, R241). -/
theorem cached_of_classifyNonFlat {c : RunCfg} {fr : Frame} (h : classifyNonFlat c fr = .cached) :
    c.cacheEn = true ∧ fr.d ≠ c.maxdepth ∧ fr.w ≤ c.M ∧ fr.h ≤ c.M := by
  unfold classifyNonFlat at h
  split at h
  · simp at h
  · repeat' split at h
    all_goals simp_all

/-- The request is sent for the top frame, whose node is CACHED, or its read set errs and the block goes IDLE (R180, R181). -/
theorem sendRequest_waits (h : s.sendRequest = .next t) (hwait : t.phase = .cacheWait) :
    ∃ fr rest, s.stack = fr :: rest ∧ classifyNonFlat s.cfg fr = .cached := by
  obtain ⟨p, fr, henabled, ⟨a, -, rfl⟩ | ⟨-, hclass, rfl⟩⟩ := nodeStep_next h
  · simp at hwait
  · obtain ⟨-, -, -, rest, hstack⟩ := enabledNode_eq_some.1 henabled
    have hcl : classify s.cfg s.P s.Q fr p = .cached := hclass
    exact ⟨fr, rest, hstack, hcl ▸ classifyNonFlat_of_classify (by simp [hcl]) (by simp [hcl])⟩

/-- What holds of a request (R205, R241), in the state that sends it. -/
theorem sendRequest_cached (h : s.sendRequest = .next t) (hwait : t.phase = .cacheWait) :
    ∃ fr rest, s.stack = fr :: rest ∧ s.cfg.cacheEn = true ∧ fr.d ≠ s.cfg.maxdepth ∧
      fr.x2 - fr.x1 ≤ s.cfg.M ∧ fr.y2 - fr.y1 ≤ s.cfg.M ∧ t.cache = s.cache := by
  obtain ⟨fr, rest, hstack, hclass⟩ := sendRequest_waits h hwait
  obtain ⟨hen, hdepth, hw, hh⟩ := cached_of_classifyNonFlat hclass
  exact ⟨fr, rest, hstack, hen, hdepth, hw, hh, (sendRequest_frame h).2⟩

end

/-- Settles O42: no case of an instruction, of the block's own step or of an event other than the host's write touches memory. -/
theorem theBlockNeverWritesMemory : Obligations.TheBlockNeverWritesMemory := by
  unfold Obligations.TheBlockNeverWritesMemory
  refine ⟨fun i s t h a => by rw [exec_mem h], fun s t hstep hwrite => ?_⟩
  rcases hsched : s.schedule with _ | ⟨e, rest⟩
  · rw [step_of_schedule_nil hsched] at hstep
    exact ownStep_mem hstep
  · rw [step_of_schedule_cons hsched] at hstep
    have he : ∀ a v, e ≠ .memWrite a v := fun a v he => hwrite a v rest (he ▸ hsched)
    exact runEvent_mem (s := { s with schedule := rest }) he hstep

/-- Settles O47: the block begins to wait by the request alone, which a CACHED node sends and which leaves the cache. -/
theorem cacheIsAskedOnlyForCachedNodes : Obligations.CacheIsAskedOnlyForCachedNodes := by
  unfold Obligations.CacheIsAskedOnlyForCachedNodes
  refine ⟨fun i s t => exec_cache, fun s t hstep hphase hwait => ?_⟩
  rcases hsched : s.schedule with _ | ⟨e, rest⟩
  · rw [step_of_schedule_nil hsched] at hstep
    exact sendRequest_cached (ownStep_waits hstep hphase hwait) hwait
  · rw [step_of_schedule_cons hsched] at hstep
    exact sendRequest_cached (s := { s with schedule := rest }) (runEvent_waits hstep hphase hwait) hwait

end Sys2Proof.Machine
end

section
/-! PROOF. DONE is set by completion alone (R81, R184). -/

namespace Sys2Proof.Machine

/-- No host write sets DONE (R132, R133). -/
theorem regWrite_done {s : State} (h : s.regs.done = false) (r : Reg) (v : Word) : (s.regWrite r v).regs.done = false := by
  obtain heq | ⟨b, heq⟩ | ⟨b, heq⟩ | heq | ⟨-, -, heq⟩ := regWrite_cases s r v
  · rwa [heq]
  · simp [heq, h]
  · obtain ⟨-, hstart⟩ | ⟨-, f, -, hstart⟩ | ⟨-, -, hstart⟩ := start_cases (s.setIrqEn b) <;> simp [heq, hstart, h]
  · simp [heq, Regs.acknowledge_eq, h]
  · rw [heq]
    cases r <;> exact h

/-- The pass end sets DONE after the last pass, and then counts nothing (R183, R184). -/
theorem passEnd_sets_done {s : State} (h : s.regs.done = false) (hdone : s.passEnd.regs.done = true) :
    s.passes.length ≤ 1 ∧ s.passEnd.regs = s.regs.complete := by
  unfold State.passEnd at hdone ⊢
  split
  · next htail =>
    have hlength := congrArg List.length htail
    rw [List.length_tail, List.length_nil] at hlength
    exact ⟨by omega, rfl⟩
  · next p ps htail => simp [htail, h] at hdone

section
variable {s t : State}

/-- No instruction sets DONE. -/
theorem exec_done {i : Instr} (h : exec i s = .next t) (hs : s.regs.done = false) : t.regs.done = false := by
  obtain ⟨host, rfl⟩ | ⟨r, v, rfl⟩ | ⟨k, hk⟩ | hi := exec_next h
  · exact hs
  · exact regWrite_done hs r v
  · rw [exec_symbol hk] at h
    obtain ⟨p, fr, -, ⟨a, -, rfl⟩ | ⟨-, -, rfl⟩⟩ := nodeStep_next h
    · rfl
    · exact hs
  · obtain ⟨pd, -, -, rfl | ⟨tail, -, rfl⟩⟩ := exec_response_next hi h
    · rfl
    · exact hs

/-- The step of the block that sets DONE is the last pass end (R81, R184). -/
theorem ownStep_sets_done (h : ownStep s = .next t) (hs : s.regs.done = false) (ht : t.regs.done = true) :
    s.phase = .active ∧ s.queue = [] ∧ s.stack = [] ∧ s.passes.length ≤ 1 ∧ t.regs = s.regs.complete := by
  obtain rfl | ⟨tok, q, -, -, -, rfl⟩ | ⟨hphase, hqueue, hstack, rfl⟩ | ⟨i, -, hexec⟩ | ⟨-, hsend⟩ := ownStep_next h
  · simp [hs] at ht
  · have hcount : (s.regs.count tok.port).done = s.regs.done := by cases tok.port <;> rfl
    simp [hcount, hs] at ht
  · obtain ⟨hpasses, hregs⟩ := passEnd_sets_done hs ht
    exact ⟨hphase, hqueue, hstack, hpasses, hregs⟩
  · simp [exec_done hexec hs] at ht
  · obtain ⟨p, fr, -, ⟨a, -, rfl⟩ | ⟨-, -, rfl⟩⟩ := nodeStep_next hsend <;> simp [hs] at ht

/-- Whatever the event, the step that sets DONE is the last pass end. -/
theorem runEvent_sets_done {e : Event} (h : runEvent e s = .next t) (hs : s.regs.done = false) (ht : t.regs.done = true) :
    ownStep s = .next t := by
  obtain ⟨i, hexec⟩ | hown | rfl | ⟨a, v, -, rfl⟩ | hattached := runEvent_next h
  · simp [exec_done hexec hs] at ht
  · exact hown
  · simp [Regs.reset] at ht
  · exact absurd (hs.symm.trans ht) (by simp)
  · rw [hattached] at ht
    exact absurd (hs.symm.trans ht) (by simp)

end

/-- Settles O45: no instruction and no event sets DONE, and of the block's own steps only completion does. -/
theorem doneComesAfterTheLastTransfer : Obligations.DoneComesAfterTheLastTransfer := by
  unfold Obligations.DoneComesAfterTheLastTransfer
  intro s t hstep hs ht
  obtain ⟨hphase, hqueue, hstack, hpasses, hregs⟩ : s.phase = .active ∧ s.queue = [] ∧ s.stack = [] ∧
      s.passes.length ≤ 1 ∧ t.regs = s.regs.complete := by
    rcases hsched : s.schedule with _ | ⟨e, rest⟩
    · rw [step_of_schedule_nil hsched] at hstep
      exact ownStep_sets_done hstep hs ht
    · rw [step_of_schedule_cons hsched] at hstep
      exact ownStep_sets_done (s := { s with schedule := rest }) (runEvent_sets_done hstep hs ht) hs ht
  exact ⟨hphase, hqueue, hstack, hpasses, by simp [hregs]⟩

end Sys2Proof.Machine
end

section
/-! PROOF. What stops the machine: no instruction faults, and none is asked for where it has no meaning (R70, R173, R182, R209). -/

namespace Sys2Proof.Machine

/-! ### Instructions -/

/-- An instruction is a host operation, a symbol that a node step finishes, or one of the cache's two answers. -/
theorem instr_kinds (i : Instr) :
    (encodeHost i).isSome = true ∨ (∃ k : NodeClass, k.symbol = some i) ∨ i = .hit ∨ i = .miss := by
  cases i with
  | regwr | regrd | start | ack => exact .inl rfl
  | skip => exact .inr (.inl ⟨.skip, rfl⟩)
  | flat => exact .inr (.inl ⟨.flat, rfl⟩)
  | quad => exact .inr (.inl ⟨.quad, rfl⟩)
  | splitx => exact .inr (.inl ⟨.splitx, rfl⟩)
  | splity => exact .inr (.inl ⟨.splity, rfl⟩)
  | deep => exact .inr (.inl ⟨.deep, rfl⟩)
  | leaf => exact .inr (.inl ⟨.leaf, rfl⟩)
  | hit => exact .inr (.inr (.inl rfl))
  | miss => exact .inr (.inr (.inr rfl))

theorem encodeHost_decodeHost_isSome (w : BitVec 39) : (encodeHost (decodeHost w)).isSome = true := by
  unfold decodeHost
  repeat' split
  all_goals rfl

/-- A host operation completes in every state (R130 to R133, R333). -/
theorem exec_host_next {i : Instr} (h : (encodeHost i).isSome = true) (s : State) : ∃ t, exec i s = .next t := by
  cases i with
  | regwr off v =>
    rcases hat : regAt off with _ | r
    · exact ⟨_, exec_regwr_unaligned hat v s⟩
    · exact ⟨_, exec_regwr hat v s⟩
  | regrd off data =>
    rcases hat : regAt off with _ | r
    · exact ⟨_, exec_regrd_unaligned hat data s⟩
    · exact ⟨_, exec_regrd hat data s⟩
  | start rest e => exact ⟨_, exec_start rest e s⟩
  | ack v => exact ⟨_, exec_ack v s⟩
  | skip | flat | quad | splitx | splity | deep | leaf | hit | miss => simp [encodeHost] at h

theorem cacheResponse_ne_fault {s : State} {act : Pending → State → Resp → Host.Outcome State Fault Refusal} {r : Fault}
    (h : ∀ pd t resp, act pd t resp ≠ .fault r) : s.cacheResponse act ≠ .fault r := by
  unfold State.cacheResponse
  split
  · exact h _ _ _
  · simp

/-- HIT and MISS take each answer of the cache without stopping the machine (R207 to R209). -/
theorem exec_response_ne_fault {i : Instr} (hi : i = .hit ∨ i = .miss) (s : State) (r : Fault) : exec i s ≠ .fault r := by
  obtain rfl | rfl := hi
  all_goals
    simp only [exec, execHit, execMiss]
    refine cacheResponse_ne_fault fun pd t resp => ?_
    cases resp with
    | hit j =>
      dsimp only
      split <;> simp
    | inserted => simp
    | error => simp

/-- No instruction stops the machine with a fault. -/
theorem exec_ne_fault (i : Instr) (s : State) (r : Fault) : exec i s ≠ .fault r := by
  obtain hhost | ⟨k, hk⟩ | hi := instr_kinds i
  · obtain ⟨t, ht⟩ := exec_host_next hhost s
    simp [ht]
  · rw [exec_symbol hk]
    exact nodeStep_ne_fault s k _ r
  · exact exec_response_ne_fault hi s r

/-- A node step asked for the class the node has completes (R180, R291). -/
theorem nodeStep_next_of_classOf {s : State} {p : Pass} {fr : Frame} {want : NodeClass} (act : Pass → Frame → State → State)
    (henabled : s.enabledNode = some (p, fr)) (hclass : s.classOf p fr = want) : ∃ t, s.nodeStep want act = .next t := by
  rcases herr : s.firstError fr with _ | a
  · exact ⟨_, nodeStep_ok act henabled herr hclass⟩
  · exact ⟨_, nodeStep_error want act henabled herr⟩

/-- The symbol a cache answer names completes the response step (R209). -/
theorem exec_respSymbol_next {s : State} {pd : Pending} (hphase : s.phase = .cacheWait) (hpending : s.pending = some pd) :
    ∃ t, exec (respSymbol (cacheLookup s.cache pd.key).2) s = .next t := by
  rcases hresp : (cacheLookup s.cache pd.key).2 with j | _ | _
  case hit =>
    change ∃ t, execHit s = .next t
    rw [execHit, cacheResponse_eq _ hphase hpending, hresp]
    dsimp only
    split <;> exact ⟨_, rfl⟩
  case inserted | error =>
    change ∃ t, execMiss s = .next t
    rw [execMiss, cacheResponse_eq _ hphase hpending, hresp]
    exact ⟨_, rfl⟩

/-! ### The block's own step -/

/-- In ACTIVE the next symbol is that of the node's class (R175). -/
theorem nextSymbol_of_enabledNode {s : State} {p : Pass} {fr : Frame} (henabled : s.enabledNode = some (p, fr)) :
    s.nextSymbol = (s.classOf p fr).symbol := by
  obtain ⟨hphase, -⟩ := enabledNode_eq_some.1 henabled
  simp [State.nextSymbol, hphase, henabled]

theorem nextSymbol_of_pending {s : State} {pd : Pending} (hphase : s.phase = .cacheWait) (hpending : s.pending = some pd) :
    s.nextSymbol = some (respSymbol (cacheLookup s.cache pd.key).2) := by
  simp [State.nextSymbol, hphase, hpending]

theorem NodeClass.eq_cached_of_symbol_eq_none {k : NodeClass} (h : k.symbol = none) : k = .cached := by
  cases k <;> simp [NodeClass.symbol] at h ⊢

/-- The step of an enabled node completes: its symbol's, or the request of a CACHED node (R173, R180). -/
theorem ownStep_next_of_enabledNode {s : State} {p : Pass} {fr : Frame} (henabled : s.enabledNode = some (p, fr)) :
    ∃ t, ownStep s = .next t := by
  obtain ⟨hphase, hqueue, -, rest, hstack⟩ := enabledNode_eq_some.1 henabled
  have hnext := nextSymbol_of_enabledNode henabled
  rcases hsymbol : (s.classOf p fr).symbol with _ | i
  · rw [ownStep_request hphase hqueue hstack (hnext.trans hsymbol)]
    exact nodeStep_next_of_classOf _ henabled (NodeClass.eq_cached_of_symbol_eq_none hsymbol)
  · rw [ownStep_symbol hphase hqueue hstack (hnext.trans hsymbol), exec_symbol hsymbol]
    exact nodeStep_next_of_classOf _ henabled rfl

/-- From a state that meets the invariant the block's own step answers a next state (R173, R182, R209). -/
theorem State.Inv.ownStep_progress {s : State} (h : s.Inv) : ∃ t, Machine.ownStep s = .next t := by
  rcases hphase : s.phase with _ | _ | _
  case idle => exact ⟨_, ownStep_idle hphase⟩
  case active =>
    rcases hqueue : s.queue with _ | ⟨tok, q⟩
    · rcases hstack : s.stack with _ | ⟨fr, rest⟩
      · exact ⟨_, ownStep_passEnd hphase hqueue hstack⟩
      · obtain ⟨hpasses, -⟩ := h.passes (h.busy_of_phase (by simp [hphase]))
        obtain ⟨p, ps, hcons⟩ := List.exists_cons_of_ne_nil hpasses
        exact ownStep_next_of_enabledNode (enabledNode_eq_some.2 ⟨hphase, hqueue, ⟨ps, hcons⟩, rest, hstack⟩)
    · exact ⟨_, ownStep_transfer hphase hqueue⟩
  case cacheWait =>
    obtain ⟨-, pd, hpending, -⟩ := h.waitPending hphase
    rcases hready : s.cacheReady with _ | _
    · exact ⟨_, ownStep_wait hphase hready⟩
    · rw [ownStep_response hphase hready (nextSymbol_of_pending hphase hpending)]
      exact exec_respSymbol_next hphase hpending

theorem ownStep_ne_fault (s : State) (r : Fault) : ownStep s ≠ .fault r := by
  rcases hphase : s.phase with _ | _ | _
  case idle => simp [ownStep_idle hphase]
  case active =>
    rcases hqueue : s.queue with _ | ⟨tok, q⟩
    · rcases hstack : s.stack with _ | ⟨fr, rest⟩
      · simp [ownStep_passEnd hphase hqueue hstack]
      · rcases hsymbol : s.nextSymbol with _ | i
        · rw [ownStep_request hphase hqueue hstack hsymbol]
          exact nodeStep_ne_fault s .cached _ r
        · rw [ownStep_symbol hphase hqueue hstack hsymbol]
          exact exec_ne_fault i s r
    · simp [ownStep_transfer hphase hqueue]
  case cacheWait =>
    rcases hready : s.cacheReady with _ | _
    · simp [ownStep_wait hphase hready]
    · rcases hsymbol : s.nextSymbol with _ | i
      · simp [ownStep, hphase, hready, hsymbol]
      · rw [ownStep_response hphase hready hsymbol]
        exact exec_ne_fault i s r

/-! ### Events -/

/-- An event other than a write outside the address space answers a next state. -/
theorem State.Inv.runEvent_progress {s : State} (h : s.Inv) {e : Event} (he : ¬e.OutOfSpace s.build) :
    ∃ t, Machine.runEvent e s = .next t := by
  cases e with
  | access w => exact exec_host_next (encodeHost_decodeHost_isSome w) s
  | own => exact h.ownStep_progress
  | memWrite a v => exact ⟨_, runEvent_memWrite (Nat.not_le.1 he) v⟩
  | oddWidthAccess | reset | setReady | setCacheReady | cacheLoad | drainSinks => exact ⟨_, rfl⟩

/-- Only a write outside the address space faults (R70; log entry 13). -/
theorem runEvent_fault {e : Event} {s : State} {r : Fault} (h : runEvent e s = .fault r) :
    ∃ a v, e = .memWrite a v ∧ 2 ^ s.build.addrW ≤ a ∧ r = .noSuchAddress a := by
  cases e with
  | access w => exact absurd h (exec_ne_fault _ s r)
  | own => exact absurd h (ownStep_ne_fault s r)
  | memWrite a v =>
    by_cases ha : a < 2 ^ s.build.addrW
    · simp [runEvent_memWrite ha] at h
    · exact ⟨a, v, rfl, Nat.not_lt.1 ha, by simpa [runEvent, ha] using h.symm⟩
  | oddWidthAccess | reset | setReady | setCacheReady | cacheLoad | drainSinks => simp [runEvent] at h

/-- Settles O41: the invariant gives every own step the node or the request it asks for, and no event but the write faults. -/
theorem nothingStopsButAWriteOutOfSpace : Obligations.NothingStopsButAWriteOutOfSpace := by
  unfold Obligations.NothingStopsButAWriteOutOfSpace
  refine ⟨fun s h hhead => ?_, fun s r hstep => ?_⟩
  · rcases hsched : s.schedule with _ | ⟨e, rest⟩
    · rw [step_of_schedule_nil hsched]
      exact h.ownStep_progress
    · rw [step_of_schedule_cons hsched]
      exact State.Inv.runEvent_progress (s := { s with schedule := rest }) { h with } (hhead e (by simp [hsched]))
  · rcases hsched : s.schedule with _ | ⟨e, rest⟩
    · rw [step_of_schedule_nil hsched] at hstep
      exact absurd hstep (ownStep_ne_fault s r)
    · rw [step_of_schedule_cons hsched] at hstep
      obtain ⟨a, v, rfl, ha, hr⟩ := runEvent_fault hstep
      exact ⟨a, v, rest, rfl, ha, hr⟩

end Sys2Proof.Machine
end

section
/-! PROOF. Host accesses and their operations: decoding and encoding are inverse to each other (R104, R130 to R133). -/

namespace Sys2Proof

/-- The operation of a read access, from its parts (R104, R131). -/
theorem decodeHost_read (off : BitVec 6) (data : Word) : decodeHost (hostWord false off data) = .regrd off data := by
  simp [decodeHost]

/-- The operation of a write access, from its parts: START, ACK or REGWR (R104, R130). -/
theorem decodeHost_write (off : BitVec 6) (data : Word) : decodeHost (hostWord true off data) =
    if off = 0x00#6 ∧ data.getLsbD 0 = true then .start (data.extractLsb' 2 30) (data.getLsbD 1)
    else if off = 0x04#6 then .ack data
    else .regwr off data := by
  simp [decodeHost]

/-- A register write is well formed when it is neither START's nor ACK's (R130). -/
theorem Instr.wf_regwr_iff {off : BitVec 6} {v : Word} :
    (Instr.regwr off v).wf = true ↔ ¬(off = 0x00#6 ∧ v.getLsbD 0 = true) ∧ off ≠ 0x04#6 := by
  simp only [Instr.wf, Bool.and_eq_true, Bool.not_eq_true', Bool.and_eq_false_iff, beq_eq_false_iff_ne, not_and_or, ne_eq,
    Bool.not_eq_true]

/-- A host operation is read back from its access. -/
theorem decodeHost_of_encodeHost {i : Instr} {w : BitVec 39} (hwf : i.wf = true) (henc : encodeHost i = some w) :
    decodeHost w = i := by
  cases i with
  | regwr off v =>
    obtain rfl := Option.some.inj henc
    obtain ⟨hstart, hack⟩ := Instr.wf_regwr_iff.1 hwf
    rw [decodeHost_write, if_neg hstart, if_neg hack]
  | regrd off data =>
    obtain rfl := Option.some.inj henc
    exact decodeHost_read off data
  | start rest irqEn =>
    obtain rfl := Option.some.inj henc
    rw [decodeHost_write, if_pos ⟨rfl, startData_getLsbD rest irqEn 0⟩, startData_rest, startData_getLsbD]
    rfl
  | ack v =>
    obtain rfl := Option.some.inj henc
    simp [decodeHost_write]
  | skip | flat | quad | splitx | splity | deep | leaf | hit | miss => simp [encodeHost] at henc

/-- Whatever the three parts of an access are, its operation is well formed and has that access. -/
theorem wf_and_encodeHost_decodeHost (rw : Bool) (off : BitVec 6) (data : Word) :
    (decodeHost (hostWord rw off data)).wf = true ∧
      encodeHost (decodeHost (hostWord rw off data)) = some (hostWord rw off data) := by
  cases rw with
  | false =>
    rw [decodeHost_read]
    exact ⟨rfl, rfl⟩
  | true =>
    rw [decodeHost_write]
    split
    · next hstart =>
      obtain ⟨rfl, hbit⟩ := hstart
      exact ⟨rfl, by rw [encodeHost, startData_parts data hbit]⟩
    · next hstart =>
      split
      · next hack =>
        subst hack
        exact ⟨rfl, rfl⟩
      · next hack => exact ⟨Instr.wf_regwr_iff.2 ⟨hstart, hack⟩, rfl⟩

/-- Settles O2: an access is its three parts, and the operation they name keeps all of them. -/
theorem everyHostAccessIsOneOperation : Obligations.EveryHostAccessIsOneOperation := by
  unfold Obligations.EveryHostAccessIsOneOperation
  intro w
  rw [← hostWord_parts w]
  exact wf_and_encodeHost_decodeHost _ _ _

end Sys2Proof
end

section
/-! PROOF. Node symbols and their command bits: what is read, what is left, and when reading fails (R105, R110, R114). -/

namespace Sys2Proof

/-- Behind the reference bit, if there is one, the flat bit is read (R110). -/
theorem decodeSymbol_refBits (c : SymCtx) (bits : List Bool) :
    decodeSymbol c (refBits c.refEn ++ bits) = decodeFlatBit c bits := by
  rcases h : c.refEn with _ | _ <;> simp [decodeSymbol, refBits, h]

/-! ### From the symbol to its bits and back -/

/-- Behind the non-flat bit the context, and for HIT and MISS the selector bit, tell an admitted symbol from all others. -/
theorem decodeBody_of_admits {c : SymCtx} {i : Instr} {cmd : List Bool} (hadm : c.admits i = true)
    (henc : encodeSymbol c.refEn i = some (refBits c.refEn ++ false :: cmd)) (rest : List Bool) :
    decodeBody c (cmd ++ rest) = .ok (i, rest) := by
  cases i with
  | regwr | regrd | start | ack => simp [SymCtx.admits] at hadm
  | skip => simp_all [encodeSymbol, SymCtx.admits, refBits]
  | flat => simp [encodeSymbol] at henc
  | quad | splitx | splity | deep | leaf | hit | miss =>
    simp only [encodeSymbol, Option.some.injEq, List.append_cancel_left_eq, List.cons.injEq, true_and] at henc
    subst henc
    simp_all [SymCtx.admits, decodeBody]

/-- A symbol that its context admits is read back from its command bits, and what follows them is left (R105, R110). -/
theorem decodeSymbol_of_encodeSymbol {c : SymCtx} {i : Instr} {bits : List Bool} (hadm : c.admits i = true)
    (henc : encodeSymbol c.refEn i = some bits) (rest : List Bool) :
    decodeSymbol c (bits ++ rest) = .ok (i, rest) := by
  cases i with
  | regwr | regrd | start | ack => simp [SymCtx.admits] at hadm
  | skip =>
    have href : c.refEn = true := hadm
    obtain rfl : [false] = bits := by simpa [encodeSymbol, href] using henc
    simp [decodeSymbol, href]
  | flat =>
    obtain rfl := Option.some.inj henc
    rw [List.append_assoc, decodeSymbol_refBits]
    rfl
  | quad | splitx | splity | deep | leaf | hit | miss =>
    obtain rfl := Option.some.inj henc
    rw [List.append_assoc, decodeSymbol_refBits]
    exact decodeBody_of_admits hadm rfl rest

/-- Every instruction has an encoding: a host access, or command bits in some context that admits it (R104, R105). -/
theorem exists_encoding (i : Instr) :
    (encodeHost i).isSome = true ∨ ∃ c : SymCtx, c.admits i = true ∧ (encodeSymbol c.refEn i).isSome = true := by
  cases i with
  | regwr | regrd | start | ack => exact .inl rfl
  | skip => exact .inr ⟨⟨true, false, false, false, false⟩, rfl, rfl⟩
  | flat | deep => exact .inr ⟨resetCtx, rfl, rfl⟩
  | quad => exact .inr ⟨⟨false, false, false, true, true⟩, rfl, rfl⟩
  | splitx => exact .inr ⟨⟨false, false, false, true, false⟩, rfl, rfl⟩
  | splity => exact .inr ⟨⟨false, false, false, false, true⟩, rfl, rfl⟩
  | leaf => exact .inr ⟨⟨false, false, false, false, false⟩, rfl, rfl⟩
  | hit | miss => exact .inr ⟨⟨false, true, false, false, false⟩, rfl, rfl⟩

/-- Settles O1: an access gives back its host operation, command bits their symbol, and each instruction has one of the two. -/
theorem decodeOfEncodeIsIdentity : Obligations.DecodeOfEncodeIsIdentity := by
  unfold Obligations.DecodeOfEncodeIsIdentity
  exact fun i hwf => ⟨fun _ => decodeHost_of_encodeHost hwf,
    fun _ _ rest hadm henc => decodeSymbol_of_encodeSymbol hadm henc rest, exists_encoding i⟩

/-! ### From the bits to the symbol and back -/

theorem refBits_length_le (refEn : Bool) : (refBits refEn).length ≤ 1 := by cases refEn <;> decide

/-- Everything the reference bit can do: be missing, say SKIP, or lead to the flat bit (R110). -/
theorem decodeSymbol_refBit_cases (c : SymCtx) (bits : List Bool) :
    (c.refEn = true ∧ bits = [] ∧ decodeSymbol c bits = .error .streamExhausted) ∨
      (c.refEn = true ∧ ∃ rest, bits = false :: rest ∧ decodeSymbol c bits = .ok (.skip, rest)) ∨
      ∃ rest, bits = refBits c.refEn ++ rest ∧ decodeSymbol c bits = decodeFlatBit c rest := by
  rcases h : c.refEn with _ | _
  · exact .inr (.inr ⟨bits, by simp [refBits], by simp [decodeSymbol, h]⟩)
  · rcases bits with _ | ⟨_ | _, rest⟩
    · exact .inl ⟨rfl, rfl, by simp [decodeSymbol, h]⟩
    · exact .inr (.inl ⟨rfl, rest, rfl, by simp [decodeSymbol, h]⟩)
    · exact .inr (.inr ⟨rest, by simp [refBits], by simp [decodeSymbol, h]⟩)

/-- Every context admits one symbol whose command bits end with the non-flat bit, or both HIT and MISS (R105, R176). -/
theorem SymCtx.admits_nonFlat (c : SymCtx) :
    (∃ i, c.admits i = true ∧ encodeSymbol c.refEn i = some (refBits c.refEn ++ [false])) ∨
      (c.admits .hit = true ∧ c.admits .miss = true) := by
  obtain ⟨refEn, cacheEn, atCeiling, wExceeds, hExceeds⟩ := c
  cases atCeiling with
  | true => exact .inl ⟨.deep, rfl, rfl⟩
  | false =>
    rcases wExceeds with _ | _ <;> rcases hExceeds with _ | _
    · cases cacheEn with
      | true => exact .inr ⟨rfl, rfl⟩
      | false => exact .inl ⟨.leaf, rfl, rfl⟩
    · exact .inl ⟨.splity, rfl, rfl⟩
    · exact .inl ⟨.splitx, rfl, rfl⟩
    · exact .inl ⟨.quad, rfl, rfl⟩

/-- Everything that can be read behind the non-flat bit (R110): an admitted symbol, with its selector bit if it has one, unless
that bit is missing. -/
theorem decodeBody_cases (c : SymCtx) (bits : List Bool) :
    (bits = [] ∧ c.admits .hit = true ∧ decodeBody c bits = .error .streamExhausted) ∨
      ∃ i cmd rest, bits = cmd ++ rest ∧ c.admits i = true ∧
        encodeSymbol c.refEn i = some (refBits c.refEn ++ false :: cmd) ∧ decodeBody c bits = .ok (i, rest) := by
  obtain ⟨i, hadm, henc⟩ | ⟨hhit, hmiss⟩ := c.admits_nonFlat
  · exact .inr ⟨i, [], bits, rfl, hadm, henc, decodeBody_of_admits hadm henc bits⟩
  · rcases bits with _ | ⟨_ | _, rest⟩
    · exact .inl ⟨rfl, hhit, by simp_all [SymCtx.admits, decodeBody]⟩
    · exact .inr ⟨.hit, [false], rest, rfl, hhit, rfl, decodeBody_of_admits hhit rfl rest⟩
    · exact .inr ⟨.miss, [true], rest, rfl, hmiss, rfl, decodeBody_of_admits hmiss rfl rest⟩

/-- Everything that can be read behind the reference bit (R110): an admitted symbol with its bits, or too few bits, which the
bits of some admitted symbol begin with. -/
theorem decodeFlatBit_cases (c : SymCtx) (bits : List Bool) :
    (bits.length ≤ 1 ∧ decodeFlatBit c bits = .error .streamExhausted ∧
        ∃ i more, c.admits i = true ∧ encodeSymbol c.refEn i = some (refBits c.refEn ++ (bits ++ more))) ∨
      ∃ i cmd rest, bits = cmd ++ rest ∧ c.admits i = true ∧
        encodeSymbol c.refEn i = some (refBits c.refEn ++ cmd) ∧ decodeFlatBit c bits = .ok (i, rest) := by
  rcases bits with _ | ⟨_ | _, bits⟩
  · exact .inl ⟨by simp, rfl, .flat, [true], rfl, rfl⟩
  · obtain ⟨rfl, hhit, herr⟩ | ⟨i, cmd, rest, rfl, hadm, henc, hok⟩ := decodeBody_cases c bits
    · exact .inl ⟨by simp, herr, .hit, [false], hhit, rfl⟩
    · exact .inr ⟨i, false :: cmd, rest, rfl, hadm, henc, hok⟩
  · exact .inr ⟨.flat, [true], bits, rfl, rfl, rfl, rfl⟩

/-- Everything that reading a symbol can do (R110, R114): give an admitted symbol and take its command bits, or find too few bits,
which the command bits of some admitted symbol begin with. -/
theorem decodeSymbol_cases (c : SymCtx) (bits : List Bool) :
    (bits.length ≤ 2 ∧ decodeSymbol c bits = .error .streamExhausted ∧
        ∃ i more, c.admits i = true ∧ encodeSymbol c.refEn i = some (bits ++ more)) ∨
      ∃ i cmd rest, bits = cmd ++ rest ∧ c.admits i = true ∧
        encodeSymbol c.refEn i = some cmd ∧ decodeSymbol c bits = .ok (i, rest) := by
  obtain ⟨href, rfl, herr⟩ | ⟨href, rest, rfl, hok⟩ | ⟨bits, rfl, hflat⟩ := decodeSymbol_refBit_cases c bits
  · exact .inl ⟨by simp, herr, .skip, [false], href, by simp [encodeSymbol, href]⟩
  · exact .inr ⟨.skip, [false], rest, rfl, href, by simp [encodeSymbol, href], hok⟩
  · rw [hflat]
    obtain ⟨hlength, herr, i, more, hadm, henc⟩ | ⟨i, cmd, rest, rfl, hadm, henc, hok⟩ := decodeFlatBit_cases c bits
    · have href := refBits_length_le c.refEn
      exact .inl ⟨by rw [List.length_append]; omega, herr, i, more, hadm, by rw [henc, List.append_assoc]⟩
    · exact .inr ⟨i, refBits c.refEn ++ cmd, rest, (List.append_assoc ..).symm, hadm, henc, hok⟩

/-- Settles O3: reading gives a symbol only where it finds all the command bits of an admitted one. -/
theorem decodedSymbolIsAdmittedByItsContext : Obligations.DecodedSymbolIsAdmittedByItsContext := by
  unfold Obligations.DecodedSymbolIsAdmittedByItsContext
  intro c bits rest i h
  obtain ⟨-, herr, -⟩ | ⟨j, cmd, rest', hbits, hadm, henc, hok⟩ := decodeSymbol_cases c bits
  · simp [herr] at h
  · obtain ⟨rfl, rfl⟩ : j = i ∧ rest' = rest := by simpa [hok] using h
    exact ⟨hadm, cmd, henc, hbits⟩

/-- Settles O4: bits that fail are the beginning of a symbol's command bits, so the missing ones complete it. -/
theorem symbolDecodingFailsOnlyOnExhaustion : Obligations.SymbolDecodingFailsOnlyOnExhaustion := by
  unfold Obligations.SymbolDecodingFailsOnlyOnExhaustion
  intro c bits e h
  obtain ⟨hlength, herr, i, more, hadm, henc⟩ | ⟨j, cmd, rest, -, -, -, hok⟩ := decodeSymbol_cases c bits
  · have he : e = .streamExhausted := by simpa [herr] using h.symm
    exact ⟨he, hlength, i, more, by simpa using decodeSymbol_of_encodeSymbol hadm henc []⟩
  · simp [hok] at h

/-- Settles O5: each word and each bit list is decoded in the context that it is given with. -/
theorem specWordsDecode : Obligations.SpecWordsDecode := by
  unfold Obligations.SpecWordsDecode
  refine ⟨by decide, by decide, by decide, by decide, ?_⟩
  exact ⟨rfl, rfl, rfl, rfl, rfl⟩

end Sys2Proof
end

section
/-! PROOF. A host access at the head of the schedule, and the transfer of a token (R104, R103, R182). -/

namespace Sys2Proof.Machine

/-- Settles O6: the step takes the access off the schedule, and the event of an access is the operation it decodes to. -/
theorem stepRunsTheDecodedAccess : Obligations.StepRunsTheDecodedAccess := by
  unfold Obligations.StepRunsTheDecodedAccess
  exact fun _ _ _ => step_of_schedule_cons

/-- The counter of the token's port grows by 1 modulo 2^32, the other two stay (R103). -/
theorem Regs.count_port (r : Regs) (tok : Token) : r.count tok.port = { r with
    cmdBits := r.cmdBits + (if tok.port = .cmd then 1 else 0)
    idxCount := r.idxCount + (if tok.port = .idx then 1 else 0)
    pixBytes := r.pixBytes + (if tok.port = .pix then 1 else 0) } := by
  cases tok <;> simp [Token.port, Regs.count]

/-- The sink of the token's port takes it, the other two stay (R101, R108). -/
theorem Sinks.take_eq_streamsOf (k : Sinks) (indexbits : Nat) (tok : Token) : k.take indexbits tok = { k with
    cmd := k.cmd ++ (streamsOf indexbits [tok]).cmd
    idx := k.idx ++ (streamsOf indexbits [tok]).idx
    pix := k.pix ++ (streamsOf indexbits [tok]).pix } := by
  cases tok <;> simp [Sinks.take]

/-- Settles O36: the head token goes to its sink if that accepts, and the block waits for a sink or cache that does not answer. -/
theorem transferMovesTheHeadToken : Obligations.TransferMovesTheHeadToken := by
  unfold Obligations.TransferMovesTheHeadToken
  refine ⟨fun s tok q hsched hphase hqueue => ?_, fun s hsched hphase hready => ?_⟩
  · rw [step_of_schedule_nil hsched, ownStep_transfer hphase hqueue]
    refine ⟨fun hacc => by simp [hacc], fun hacc => ⟨s.transfer tok q, by simp [hacc], rfl, ?_, ?_⟩⟩
    · exact s.regs.count_port tok
    · exact s.sinks.take_eq_streamsOf s.cfg.indexbits tok
  · rw [step_of_schedule_nil hsched, ownStep_wait hphase hready]

end Sys2Proof.Machine
end

section
/-! PROOF. What changes the counters, KEYFRAME and IRQ_EN, and what the sinks hold (R35, R46, R103, R182). -/

namespace Sys2Proof.Machine

/-- KEYFRAME, IRQ_EN and the three counters are those of `r` (R35, R37, R103). -/
structure Uncounted (r r' : Regs) : Prop where
  keyframe : r'.keyframe = r.keyframe
  irqEn : r'.irqEn = r.irqEn
  cmdBits : r'.cmdBits = r.cmdBits
  idxCount : r'.idxCount = r.idxCount
  pixBytes : r'.pixBytes = r.pixBytes

/-- The sinks hold what they held, whether or not they accept. -/
structure SameHeld (k k' : Sinks) : Prop where
  cmd : k'.cmd = k.cmd
  idx : k'.idx = k.idx
  pix : k'.pix = k.pix

/-- The head token of the queue went through a sink that accepts it, and was counted (R103, R182). -/
structure Transferred (s t : State) (tok : Token) : Prop where
  queue : s.queue = tok :: t.queue
  phase : s.phase = .active
  accepts : s.sinks.accepts tok.port = true
  regs : t.regs = s.regs.count tok.port

theorem Uncounted.refl (r : Regs) : Uncounted r r := ⟨rfl, rfl, rfl, rfl, rfl⟩

theorem Uncounted.enterFault (r : Regs) (f : RunFault) (info : Word) : Uncounted r (r.enterFault f info) :=
  ⟨rfl, rfl, rfl, rfl, rfl⟩

theorem Uncounted.passEnd (s : State) : Uncounted s.regs s.passEnd.regs := by
  unfold State.passEnd
  split <;> exact ⟨rfl, rfl, rfl, rfl, rfl⟩

@[simp] theorem State.passEnd_sinks (s : State) : s.passEnd.sinks = s.sinks := by
  unfold State.passEnd
  split <;> rfl

theorem SameHeld.refl (k : Sinks) : SameHeld k k := ⟨rfl, rfl, rfl⟩

theorem SameHeld.setReady (k : Sinks) (ready : Bool) (p : Port) : SameHeld k (k.setReady ready p) := by
  cases p <;> exact ⟨rfl, rfl, rfl⟩

@[simp] theorem Regs.count_irqEn (r : Regs) (p : Port) : (r.count p).irqEn = r.irqEn := by cases p <;> rfl

/-- The block asks for node symbols alone (R175, R209). -/
theorem nextSymbol_kinds {s : State} {i : Instr} (h : s.nextSymbol = some i) :
    (∃ k : NodeClass, k.symbol = some i) ∨ i = .hit ∨ i = .miss := by
  unfold State.nextSymbol at h
  split at h
  · simp at h
  · split at h
    · next p fr _ => exact .inl ⟨s.classOf p fr, h⟩
    · simp at h
  · obtain ⟨pd, -, rfl⟩ := Option.map_eq_some_iff.1 h
    rcases (cacheLookup s.cache pd.key).2 with j | _ | _
    · exact .inr (.inl rfl)
    · exact .inr (.inr rfl)
    · exact .inr (.inr rfl)

section
variable {s t : State}

/-- A node step counts nothing: its tokens are queued, or it faults (R180, R283). -/
theorem nodeStep_uncounted {want : NodeClass} {act : Pass → Frame → State → State} (h : s.nodeStep want act = .next t)
    (hact : ∀ p fr, (act p fr (s.popNode p fr)).regs = s.regs ∧ (act p fr (s.popNode p fr)).sinks = s.sinks) :
    Uncounted s.regs t.regs ∧ t.sinks = s.sinks := by
  obtain ⟨p, fr, -, ⟨a, -, rfl⟩ | ⟨-, -, rfl⟩⟩ := nodeStep_next h
  · exact ⟨.enterFault s.regs .mem _, rfl⟩
  · obtain ⟨hregs, hsinks⟩ := hact p fr
    exact ⟨hregs ▸ .refl s.regs, hsinks⟩

/-- A symbol counts nothing and hands no token to a sink: the transfers of its tokens are steps of their own (R182). -/
theorem exec_nextSymbol_uncounted {i : Instr} (hi : s.nextSymbol = some i) (h : exec i s = .next t) :
    Uncounted s.regs t.regs ∧ t.sinks = s.sinks := by
  obtain ⟨k, hk⟩ | hresp := nextSymbol_kinds hi
  · rw [exec_symbol hk] at h
    exact nodeStep_uncounted h fun _ _ => ⟨rfl, rfl⟩
  · obtain ⟨pd, -, -, rfl | ⟨tail, -, rfl⟩⟩ := exec_response_next hresp h
    · exact ⟨.enterFault s.regs .cache 0, rfl⟩
    · exact ⟨.refl s.regs, rfl⟩

/-- Of the block's own steps the transfer alone counts and fills a sink (R103, R182). -/
theorem ownStep_counts (h : ownStep s = .next t) :
    (Uncounted s.regs t.regs ∧ t.sinks = s.sinks) ∨ ∃ tok, Transferred s t tok := by
  obtain rfl | ⟨tok, q, hphase, hqueue, hacc, rfl⟩ | ⟨-, -, -, rfl⟩ | ⟨i, hi, hexec⟩ | ⟨-, hsend⟩ := ownStep_next h
  · exact .inl ⟨.refl _, rfl⟩
  · exact .inr ⟨tok, hqueue, hphase, hacc, rfl⟩
  · exact .inl ⟨.passEnd s, s.passEnd_sinks⟩
  · exact .inl (exec_nextSymbol_uncounted hi hexec)
  · exact .inl (nodeStep_uncounted hsend fun _ _ => ⟨rfl, rfl⟩)

/-- Of the events other than an access and reset, the block's move alone counts, and only the host's discarding takes tokens from
the sinks (R103, R331). -/
theorem runEvent_counts {e : Event} (hreset : e ≠ .reset) (haccess : ∀ w, e ≠ .access w) (h : runEvent e s = .next t) :
    (Uncounted s.regs t.regs ∧ (SameHeld s.sinks t.sinks ∨ e = .drainSinks)) ∨ ∃ tok, Transferred s t tok := by
  cases e with
  | access w => exact absurd rfl (haccess w)
  | reset => exact absurd rfl hreset
  | own => exact (ownStep_counts h).imp_left fun ⟨hregs, hsinks⟩ => ⟨hregs, .inl (hsinks ▸ .refl s.sinks)⟩
  | setReady p ready =>
    obtain rfl := Host.Outcome.next.inj h
    exact .inl ⟨.refl s.regs, .inl (.setReady s.sinks ready p)⟩
  | drainSinks =>
    obtain rfl := Host.Outcome.next.inj h
    exact .inl ⟨.refl s.regs, .inr rfl⟩
  | memWrite a v =>
    simp only [runEvent] at h
    split at h
    · obtain rfl := Host.Outcome.next.inj h
      exact .inl ⟨.refl s.regs, .inl (.refl s.sinks)⟩
    · simp at h
  | oddWidthAccess write =>
    obtain rfl := Host.Outcome.next.inj h
    cases write <;> exact .inl ⟨.refl s.regs, .inl (.refl s.sinks)⟩
  | setCacheReady | cacheLoad =>
    obtain rfl := Host.Outcome.next.inj h
    exact .inl ⟨.refl s.regs, .inl (.refl s.sinks)⟩

/-- Whatever the step, unless its event is an access or reset. -/
theorem step_counts (hhead : ∀ e ∈ s.schedule.head?, e ≠ .reset ∧ ∀ w, e ≠ .access w) (h : step s = .next t) :
    (Uncounted s.regs t.regs ∧ (SameHeld s.sinks t.sinks ∨ s.schedule.head? = some .drainSinks)) ∨
      ∃ tok, Transferred s t tok := by
  rcases hsched : s.schedule with _ | ⟨e, rest⟩
  · rw [step_of_schedule_nil hsched] at h
    exact (ownStep_counts h).imp_left fun ⟨hregs, hsinks⟩ => ⟨hregs, .inl (hsinks ▸ .refl s.sinks)⟩
  · rw [step_of_schedule_cons hsched] at h
    obtain ⟨hreset, haccess⟩ := hhead e (by simp [hsched])
    obtain ⟨hregs, hheld⟩ | ⟨tok, htok⟩ := runEvent_counts hreset haccess h
    · exact .inl ⟨hregs, hheld.imp_right fun he => by simp [he]⟩
    · exact .inr ⟨tok, { htok with }⟩

end

/-- Settles O44: of all steps but accesses and reset, only the transfer counts, and only discarding empties the sinks. -/
theorem onlyTransfersCount : Obligations.OnlyTransfersCount := by
  unfold Obligations.OnlyTransfersCount
  intro s t hhead hstep
  obtain ⟨hregs, hheld⟩ | ⟨tok, htok⟩ := step_counts hhead hstep
  · exact ⟨hregs.keyframe, hregs.irqEn, .inl ⟨hregs.cmdBits, hregs.idxCount, hregs.pixBytes,
      hheld.imp_left fun held => ⟨held.cmd, held.idx, held.pix⟩⟩⟩
  · refine ⟨?_, ?_, .inr ⟨tok, t.queue, htok.queue, rfl, htok.phase, htok.accepts, htok.regs⟩⟩
    · rw [htok.regs, Regs.count_keyframe]
    · rw [htok.regs, Regs.count_irqEn]

end Sys2Proof.Machine
end

section
/-! PROOF. START and ACK, outcome by outcome (R132, R133, R134, R282, R283). -/

namespace Sys2Proof.Machine

section
variable {s : State} (hidle : s.regs.busy = false)
include hidle

/-- A configuration that passes the check lets the run begin (R132). -/
theorem start_of_configCheck_none (hcheck : configCheck s.build s.regs.toCfg = none) : s.start = s.latchStart.beginRun := by
  simp [State.start, hidle, hcheck]

/-- A configuration the check answers with a code ends START in that fault (R282). -/
theorem start_of_configCheck_some {f : RunFault} (hcheck : configCheck s.build s.regs.toCfg = some f) :
    s.start = s.latchStart.raiseFault f 0 := by
  simp [State.start, hidle, hcheck]

end

/-- A fault with no address to report leaves FAULT_ADDR 0, whatever its cause (R36, R283). -/
theorem Regs.enterFault_zero (r : Regs) (f : RunFault) :
    r.enterFault f 0 = { r with fault := true, errcode := f.code, done := false, faultAddr := 0, busy := false } := by
  rw [Regs.enterFault, ite_self]

/-- Settles O14: IRQ_EN is written, and START itself does nothing while a run goes on. -/
theorem startWhileBusyOnlyWritesIrqEn : Obligations.StartWhileBusyOnlyWritesIrqEn := by
  unfold Obligations.StartWhileBusyOnlyWritesIrqEn
  intro s rest e hbusy
  rw [exec_start, start_of_busy (s := s.setIrqEn e) hbusy]
  rfl

/-- Settles O15: START latches the configuration and pushes the root frame of the first pass. -/
theorem startBeginsARun : Obligations.StartBeginsARun := by
  unfold Obligations.StartBeginsARun
  intro s rest e hidle hcheck
  rw [exec_start, start_of_configCheck_none (s := s.setIrqEn e) hidle hcheck]
  rfl

/-- Settles O16: the fault is entered from the latched state, whose outcome the fault entry writes over. -/
theorem startFaultsOnABadConfiguration : Obligations.StartFaultsOnABadConfiguration := by
  unfold Obligations.StartFaultsOnABadConfiguration
  intro s rest e f hidle hcheck
  refine ⟨((s.setIrqEn e).latchStart.raiseFault f 0).writeDone, ?_, rfl, ?_⟩
  · rw [exec_start, start_of_configCheck_some (s := s.setIrqEn e) hidle hcheck]
  · exact {
      regs := Regs.enterFault_zero (s.setIrqEn e).latchStart.regs f
      phase := rfl
      passes := rfl
      stack := rfl
      queue := rfl
      pending := rfl
      sinks := rfl
      mem := fun _ => rfl
      rest := ⟨rfl, rfl, rfl, rfl, rfl, rfl⟩ }

/-- The interrupt line is low when no outcome is left (R297). -/
theorem irq_eq_false_of_no_outcome {s : State} (hdone : s.regs.done = false) (hfault : s.regs.fault = false) :
    s.irq = false := by
  rw [State.irq, hdone, hfault, Bool.or_self, Bool.and_false]

/-- Settles O19: ACK changes the outcome's fields alone. -/
theorem ackClearsWhatItNames : Obligations.AckClearsWhatItNames := by
  unfold Obligations.AckClearsWhatItNames
  intro s v
  exact ⟨(s.ack v).writeDone, exec_ack v s, ⟨rfl, fun _ => rfl⟩, rfl, s.regs.acknowledge_eq v, irq_eq_false_of_no_outcome⟩

end Sys2Proof.Machine
end

section
/-! PROOF. The payload bytes of a pixel, and their place in a raw payload (R155, R156, R14). -/

namespace Sys2Proof.Machine

/-- Settles O32: the channels of each payload order are named one by one. -/
theorem payloadTable : Obligations.PayloadTable := by
  unfold Obligations.PayloadTable
  exact fun q => ⟨rfl, rfl, rfl, rfl, rfl, rfl⟩

/-- Where every element contributes `n` items, the `i`-th element's are those from place `i * n` on. -/
theorem take_drop_flatMap {α β : Type} {f : α → List β} {n : Nat} (hlen : ∀ a, (f a).length = n) {l : List α} {i : Nat} {a : α}
    (h : l[i]? = some a) : ((l.flatMap f).drop (i * n)).take n = f a := by
  induction l generalizing i with
  | nil => simp at h
  | cons b l ih =>
    cases i with
    | zero =>
      obtain rfl : b = a := by simpa using h
      simp [hlen]
    | succ i =>
      have hplace : (i + 1) * n = (f b).length + i * n := by rw [hlen, Nat.add_one_mul, Nat.add_comm]
      rw [List.flatMap_cons, hplace, List.drop_length_add_append]
      exact ih (by simpa using h)

/-- The place of a pixel in the row-major order of a region (R14). -/
theorem rowMajor_getElem? {fr : Frame} {x y : Nat} (hx : fr.x1 ≤ x ∧ x < fr.x2) (hy : fr.y1 ≤ y ∧ y < fr.y2) :
    (rowMajor fr)[(y - fr.y1) * fr.w + (x - fr.x1)]? = some (x, y) := by
  have hi : x - fr.x1 < fr.w := Nat.sub_lt_sub_right hx.1 hx.2
  have hj : y - fr.y1 < fr.h := Nat.sub_lt_sub_right hy.1 hy.2
  have hrow : ((rowMajor fr).drop ((y - fr.y1) * fr.w)).take fr.w = (List.range fr.w).map fun i => (fr.x1 + i, y) := by
    rw [rowMajor, take_drop_flatMap (by simp) (List.getElem?_range hj), Nat.add_sub_cancel' hy.1]
  calc (rowMajor fr)[(y - fr.y1) * fr.w + (x - fr.x1)]?
    _ = (((rowMajor fr).drop ((y - fr.y1) * fr.w)).take fr.w)[x - fr.x1]? := by
      rw [List.getElem?_take_of_lt hi, List.getElem?_drop]
    _ = some (x, y) := by rw [hrow, List.getElem?_map, List.getElem?_range hi, Option.map_some, Nat.add_sub_cancel' hx.1]

/-- Settles O33: every pixel has `nb p` payload bytes, so its place among the pixels is its place in the payload. -/
theorem rawPayloadIsRowMajor : Obligations.RawPayloadIsRowMajor := by
  unfold Obligations.RawPayloadIsRowMajor
  refine fun bgra P fr p => ⟨raw_length bgra P fr p, fun x y hx1 hx2 hy1 hy2 => ?_⟩
  exact take_drop_flatMap (fun _ => pixBytes_length _ _ _) (rowMajor_getElem? ⟨hx1, hx2⟩ ⟨hy1, hy2⟩)

end Sys2Proof.Machine
end

section
/-! PROOF. The comparisons of a node and the class they give it (R152, R153, R174, R175), and the node step that is enabled
where nothing errs (R173, R181). -/

namespace Sys2Proof.Machine

theorem eqM_iff {q r : Pixel} {mk : List Channel} : eqM q r mk = true ↔ ∀ c ∈ mk, q.get c = r.get c := by
  simp [eqM]

/-- CMP_REF compares the pixels of the region (R152). -/
theorem cmpRef_iff {P Q : Image} {fr : Frame} {mk : List Channel} : cmpRef P Q fr mk = true ↔ AgreeOn P Q fr mk := by
  simp only [cmpRef, List.all_eq_true, eqM_iff, Prod.forall, mem_rowMajor, AgreeOn]
  exact ⟨fun h x y hx1 hx2 hy1 hy2 => h x y ⟨⟨hx1, hx2⟩, hy1, hy2⟩, fun h x y ⟨⟨hx1, hx2⟩, hy1, hy2⟩ => h x y hx1 hx2 hy1 hy2⟩

/-- CMP_FLAT is CMP_REF against the image of the top-left pixel (R153). -/
theorem cmpFlat_iff {P : Image} {fr : Frame} {mk : List Channel} :
    cmpFlat P fr mk = true ↔ AgreeOn P (fun _ _ => P fr.x1 fr.y1) fr mk :=
  cmpRef_iff (Q := fun _ _ => P fr.x1 fr.y1)

/-- A node that is lazy, or neither equal to its reference nor uniform, is classified by its frame alone (R174, R175). -/
theorem classify_of_selectsNonFlat {c : RunCfg} {P Q : Image} {fr : Frame} {p : Pass} (h : SelectsNonFlat c P Q fr p) :
    classify c P Q fr p = classifyNonFlat c fr := by
  unfold classify
  obtain hlazy | ⟨hskip, hflat⟩ := h
  · simp [isLazy, hlazy]
  · rw [← cmpRef_iff] at hskip
    rw [← cmpFlat_iff] at hflat
    rw [if_neg fun ⟨href, _, hcmp⟩ => hskip ⟨href, hcmp⟩, if_neg fun ⟨_, hcmp⟩ => hflat hcmp]

/-- Below the ceiling, a frame neither of whose extents is above `M` asks the cache where there is one (R175, R205, R241). -/
theorem classifyNonFlat_cached {c : RunCfg} {fr : Frame} (hdepth : fr.d ≠ c.maxdepth) (hw : fr.w ≤ c.M) (hh : fr.h ≤ c.M)
    (hcache : c.cacheEn = true) : classifyNonFlat c fr = .cached := by
  have hw' : ¬c.M < fr.w := Nat.not_lt.2 hw
  have hh' : ¬c.M < fr.h := Nat.not_lt.2 hh
  simp only [classifyNonFlat, hdepth, hw', hh', hcache, false_and, if_true, if_false]

section
variable {s : State} {p : Pass} {fr : Frame} {rest : List Frame} (h : NodeReady s p fr rest)
include h

theorem NodeReady.enabledNode : s.enabledNode = some (p, fr) :=
  enabledNode_eq_some.2 ⟨h.phase, h.queue, List.head?_eq_some_iff.1 h.pass, rest, h.stack⟩

theorem NodeReady.firstError : s.firstError fr = none := by
  rw [State.firstError, List.find?_eq_none]
  intro a ha
  simp [State.memRead, h.reads a ha]

/-- With no input waiting, a CACHED node that is ready sends its request (R180, R230). -/
theorem NodeReady.step_request (hsched : s.schedule = []) (hclass : s.classOf p fr = .cached) :
    step s = .next { s.popNode p fr with
      pending := some { frame := fr, head := splitTokens s.cfg, fmt := p, key := keyOf s.cfg.bgra s.P fr p }
      phase := .cacheWait } := by
  have hnext : s.nextSymbol = none := by rw [nextSymbol_of_enabledNode h.enabledNode, hclass, NodeClass.symbol]
  rw [step_of_schedule_nil hsched, ownStep_request h.phase h.queue h.stack hnext]
  exact nodeStep_ok _ h.enabledNode h.firstError hclass

end

/-- Settles O27: the node is CACHED, and the state after its request is written out. -/
theorem minimumLeafAsksTheCache : Obligations.MinimumLeafAsksTheCache := by
  unfold Obligations.MinimumLeafAsksTheCache
  intro s p fr rest hready hnonflat hsched hdepth hw hh hcache
  have hclass : s.classOf p fr = .cached :=
    (classify_of_selectsNonFlat hnonflat).trans (classifyNonFlat_cached hdepth hw hh hcache)
  refine ⟨_, hready.step_request hsched hclass, rfl, hready.queue, ?_, rfl, rfl, rfl, fun _ => rfl, _, rfl, rfl, rfl, rfl, rfl⟩
  simp [hready.stack]

end Sys2Proof.Machine
end

section
/-! PROOF. The channel `a` is in no mask and in no payload (R150, R155), so no run looks at it (R159). -/

namespace Sys2Proof

/-- A pixel with its channel `a` set to 0. -/
def Pixel.withoutAlpha (q : Pixel) : Pixel := { q with a := 0 }

/-- An image with every channel `a` set to 0. -/
def Image.withoutAlpha (P : Image) : Image := fun x y => (P x y).withoutAlpha

/-- Images that agree on every channel but `a` are the same image without it. -/
theorem Image.withoutAlpha_congr {P P' : Image} (h : ∀ x y c, c ≠ Channel.a → (P x y).get c = (P' x y).get c) :
    P.withoutAlpha = P'.withoutAlpha := by
  funext x y
  simp only [Image.withoutAlpha, Pixel.withoutAlpha, Pixel.mk.injEq]
  exact ⟨h x y .x (by decide), h x y .y (by decide), h x y .z (by decide), trivial⟩

@[simp] theorem Image.withoutAlpha_apply (P : Image) (x y : Nat) :
    P.withoutAlpha x y = (P x y).withoutAlpha := rfl

end Sys2Proof

namespace Sys2Proof.Machine

section
variable (p : Pass)

/-- Masked equality does not look at `a` (R150, R151). -/
@[simp] theorem eqM_withoutAlpha (q r : Pixel) :
    eqM q.withoutAlpha r.withoutAlpha (maskOf p) = eqM q r (maskOf p) := by
  cases p <;> rfl

/-- No payload carries `a` (R155). -/
@[simp] theorem pixBytes_withoutAlpha (bgra : Bool) (q : Pixel) :
    pixBytes bgra q.withoutAlpha p = pixBytes bgra q p := by
  cases p <;> cases bgra <;> rfl

variable (P Q : Image) (fr : Frame) (cfg : RunCfg)

@[simp] theorem cmpRef_withoutAlpha :
    cmpRef P.withoutAlpha Q.withoutAlpha fr (maskOf p) = cmpRef P Q fr (maskOf p) := by
  simp [cmpRef]

@[simp] theorem cmpFlat_withoutAlpha : cmpFlat P.withoutAlpha fr (maskOf p) = cmpFlat P fr (maskOf p) := by
  simp [cmpFlat]

@[simp] theorem raw_withoutAlpha (bgra : Bool) : raw bgra P.withoutAlpha fr p = raw bgra P fr p := by
  simp [raw]

@[simp] theorem keyOf_withoutAlpha (bgra : Bool) : keyOf bgra P.withoutAlpha fr p = keyOf bgra P fr p := by
  simp [keyOf]

@[simp] theorem classify_withoutAlpha :
    classify cfg P.withoutAlpha Q.withoutAlpha fr p = classify cfg P Q fr p := by
  simp [classify]

@[simp] theorem flatTokens_withoutAlpha : flatTokens cfg P.withoutAlpha fr p = flatTokens cfg P fr p := by
  simp [flatTokens]

@[simp] theorem rawTokens_withoutAlpha : rawTokens cfg P.withoutAlpha fr p = rawTokens cfg P fr p := by
  simp [rawTokens]

variable {C : Type} (M : CacheModel C)

/-- The class of a node, its tokens and its key do not depend on `a`; nor then do its children's. -/
@[simp] theorem encodeNode_withoutAlpha (n : Nat) :
    encodeNode M cfg P.withoutAlpha Q.withoutAlpha p n = encodeNode M cfg P Q p n := by
  induction n with
  | zero => rfl
  | succ n ih =>
    funext fr c
    cases h : classify cfg P Q fr p with
    | skip | flat | deep | leaf => simp [encodeNode, h]
    | quad | splitx | splity => simp [encodeNode, h, ih]
    | cached => simp [encodeNode, h]

@[simp] theorem encodePasses_withoutAlpha (ps : List Pass) (c : C) :
    encodePasses M cfg P.withoutAlpha Q.withoutAlpha ps c = encodePasses M cfg P Q ps c := by
  induction ps generalizing c with
  | nil => rfl
  | cons p ps ih => simp [encodePasses, ih]

/-- A run's outputs are those of the images without their channel `a` (R159). -/
theorem encodeRun_withoutAlpha (c0 : C) :
    encodeRun M cfg P.withoutAlpha Q.withoutAlpha c0 = encodeRun M cfg P Q c0 :=
  encodePasses_withoutAlpha P Q cfg M (passList cfg.colordiff) c0

end

/-- Settles O56: without the channel `a` the two pairs of images are the same. -/
theorem alphaNeverMatters : Obligations.AlphaNeverMatters := by
  unfold Obligations.AlphaNeverMatters
  intro C M cfg P P' Q Q' c0 hP hQ
  rw [← encodeRun_withoutAlpha P Q, Image.withoutAlpha_congr hP, Image.withoutAlpha_congr hQ, encodeRun_withoutAlpha]

end Sys2Proof.Machine
end

section
/-! PROOF. Steps of the machine in a row, and tokens sent in a row (R182, R103). -/

namespace Sys2Proof.Machine

/-- Some number of steps leads from one state to the other. -/
def Steps : State → State → Prop := Relation.ReflTransGen fun s t => step s = .next t

theorem Steps.of_step {s t : State} (h : step s = .next t) : Steps s t := .single h

/-- Steps in a row are a run of the machine. -/
theorem Steps.exists_run {s t : State} (h : Steps s t) : ∃ n, Host.Core.run core n s = .next t := by
  induction h using Relation.ReflTransGen.head_induction_on with
  | refl => exact ⟨0, rfl⟩
  | head hstep _ ih =>
    obtain ⟨n, hn⟩ := ih
    refine ⟨n + 1, ?_⟩
    simp only [Host.Core.run]
    rw [show core.step _ = .next _ from hstep]
    exact hn

/-- The counters once the tokens of `q` have been transferred (R103). -/
def Regs.sent (r : Regs) (q : Streams) : Regs :=
  { r with
    cmdBits := r.cmdBits + BitVec.ofNat 32 q.cmd.length
    idxCount := r.idxCount + BitVec.ofNat 32 q.idx.length
    pixBytes := r.pixBytes + BitVec.ofNat 32 q.pix.length }

/-- The sinks once they have taken the tokens of `q` (R101). -/
def Sinks.sent (k : Sinks) (q : Streams) : Sinks :=
  { k with cmd := k.cmd ++ q.cmd, idx := k.idx ++ q.idx, pix := k.pix ++ q.pix }

/-- The state once the tokens `ts` have been counted and have reached their sinks. -/
def State.send (s : State) (ts : List Token) : State :=
  { s with regs := s.regs.sent (streamsOf s.cfg.indexbits ts), sinks := s.sinks.sent (streamsOf s.cfg.indexbits ts) }

@[simp] theorem State.send_nil (s : State) : s.send [] = s := by
  simp [State.send, Regs.sent, Sinks.sent]

theorem State.send_append (s : State) (ts us : List Token) : s.send (ts ++ us) = (s.send ts).send us := by
  simp [State.send, Regs.sent, Sinks.sent, streamsOf_append, BitVec.ofNat_add, BitVec.add_assoc]

/-- A transfer sends the head token (R182). -/
theorem State.transfer_eq_send (s : State) (tok : Token) (q : List Token) :
    s.transfer tok q = { s.send [tok] with queue := q } := by
  have hregs : s.regs.count tok.port = s.regs.sent (streamsOf s.cfg.indexbits [tok]) := by
    cases tok <;> simp [Token.port, Regs.count, Regs.sent]
  rw [State.transfer, hregs, Sinks.take_eq_streamsOf]
  rfl

theorem State.Free.accepts {s : State} (h : s.Free) (p : Port) : s.sinks.accepts p = true := by
  cases p
  exacts [h.cmd, h.idx, h.pix]

/-- With sinks that accept, a queue is sent token by token (R182). -/
theorem State.Free.steps_drain {s : State} (h : s.Free) (hphase : s.phase = .active) {ts : List Token} (hqueue : s.queue = ts) :
    Steps s { s.send ts with queue := [] } := by
  induction ts generalizing s with
  | nil =>
    rw [State.send_nil, ← hqueue]
    exact .refl
  | cons tok q ih =>
    have hstep : step s = .next (s.transfer tok q) := by
      rw [step_of_schedule_nil h.schedule, ownStep_transfer hphase hqueue, if_pos (h.accepts _)]
    have hrest : Steps (s.transfer tok q) { (s.transfer tok q).send q with queue := [] } :=
      ih (s := s.transfer tok q) (by rw [State.transfer_eq_send]; exact { h with }) hphase rfl
    rw [State.transfer_eq_send] at hrest hstep
    rw [← List.singleton_append, State.send_append]
    exact .head hstep hrest

end Sys2Proof.Machine
end

section
/-! PROOF. What one step of the block does: a node that is ready, the cache's answer, the end of a pass (R180, R183, R209). -/

namespace Sys2Proof.Machine

/-- A node that is ready and finishes in its node step does what its class says (R180). -/
theorem NodeReady.step_symbol {s : State} {p : Pass} {fr : Frame} {rest : List Frame} {i : Instr} (h : NodeReady s p fr rest)
    (hsched : s.schedule = []) (hsymbol : (s.classOf p fr).symbol = some i) :
    step s = .next (((s.popNode p fr).enqueue ((s.classOf p fr).tokens s.cfg s.P p fr)).pushChildren
      ((s.classOf p fr).children fr)) := by
  have hnext : s.nextSymbol = some i := (nextSymbol_of_enabledNode h.enabledNode).trans hsymbol
  rw [step_of_schedule_nil hsched, ownStep_symbol h.phase h.queue h.stack hnext, exec_symbol hsymbol]
  exact nodeStep_ok _ h.enabledNode h.firstError rfl

/-- HIT, where the cache names a slot whose number fits (R207, R209). -/
theorem exec_hit_of_lookup {s : State} {pd : Pending} {j : Nat} (hphase : s.phase = .cacheWait) (hpending : s.pending = some pd)
    (hresp : (cacheLookup s.cache pd.key).2 = .hit j) (hj : j < 2 ^ s.cfg.indexbits) :
    exec .hit s = .next ((s.answered pd).resume (pd.head ++ [.cmd false, .idx j])) := by
  change execHit s = _
  rw [execHit, cacheResponse_eq _ hphase hpending, hresp]
  exact if_pos hj

/-- MISS, where the cache has inserted the key (R208, R209). -/
theorem exec_miss_of_lookup {s : State} {pd : Pending} (hphase : s.phase = .cacheWait) (hpending : s.pending = some pd)
    (hresp : (cacheLookup s.cache pd.key).2 = .inserted) :
    exec .miss s = .next ((s.answered pd).resume (pd.head ++ [.cmd true] ++ pixTokens pd.key.bytes)) := by
  change execMiss s = _
  rw [execMiss, cacheResponse_eq _ hphase hpending, hresp]
  rfl

/-- With no input waiting, the answer of a cache that is ready runs the symbol it names (R209). -/
theorem step_response {s : State} {pd : Pending} (hsched : s.schedule = []) (hphase : s.phase = .cacheWait)
    (hpending : s.pending = some pd) (hready : s.cacheReady = true) :
    step s = exec (respSymbol (cacheLookup s.cache pd.key).2) s := by
  rw [step_of_schedule_nil hsched, ownStep_response hphase hready (nextSymbol_of_pending hphase hpending)]

/-- Where the recursive definition goes on, the answer's step queues the tokens it gives (R207 to R209). -/
theorem step_response_of_encodeCached {s : State} {pd : Pending} {ts : List Token} {c : CacheState}
    (hsched : s.schedule = []) (hphase : s.phase = .cacheWait) (hpending : s.pending = some pd) (hready : s.cacheReady = true)
    (hhead : pd.head = splitTokens s.cfg) (henc : encodeCached s.cfg pd.key (cacheLookup s.cache pd.key) = some (ts, c)) :
    step s = .next ((s.answered pd).resume ts) ∧ (cacheLookup s.cache pd.key).1 = c := by
  rw [step_response hsched hphase hpending hready]
  rcases hlookup : cacheLookup s.cache pd.key with ⟨c', j | _ | _⟩
  case hit =>
    simp only [hlookup, encodeCached, Option.ite_none_right_eq_some, Option.some.injEq, Prod.mk.injEq] at henc
    obtain ⟨hj, rfl, rfl⟩ := henc
    refine ⟨?_, rfl⟩
    rw [respSymbol, exec_hit_of_lookup hphase hpending (by rw [hlookup]) hj, hhead]
    simp [hitTokens, splitTokens]
  case inserted =>
    simp only [hlookup, encodeCached, Option.some.injEq, Prod.mk.injEq] at henc
    obtain ⟨rfl, rfl⟩ := henc
    refine ⟨?_, rfl⟩
    rw [respSymbol, exec_miss_of_lookup hphase hpending (by rw [hlookup]), hhead]
    simp [missTokens, splitTokens]
  case error => simp [hlookup, encodeCached] at henc

/-- With another pass left, the pass end pushes the root of that pass (R183). -/
theorem passEnd_of_next {s : State} {p q : Pass} {ps : List Pass} (hpasses : s.passes = p :: q :: ps) :
    s.passEnd = { s with passes := q :: ps, stack := [rootFrame s.cfg.W s.cfg.H] } := by
  simp [State.passEnd, hpasses]

/-- With no pass left, the pass end completes the run (R184). -/
theorem passEnd_of_last {s : State} {p : Pass} (hpasses : s.passes = [p]) :
    s.passEnd = { s with passes := [], phase := .idle, regs := s.regs.complete } := by
  simp [State.passEnd, hpasses]

theorem step_passEnd {s : State} (hsched : s.schedule = []) (hphase : s.phase = .active) (hqueue : s.queue = [])
    (hstack : s.stack = []) : step s = .next s.passEnd := by
  rw [step_of_schedule_nil hsched, ownStep_passEnd hphase hqueue hstack]

end Sys2Proof.Machine
end

section
/-! PROOF. What the recursive definition of a run gives, node by node (R185). -/

namespace Sys2Proof.Machine

section
variable {C : Type} {c c2 : C} {ts : List Token}

theorem encodeList_cons_eq_some {f : Frame → C → Option (List Token × C)} {fr : Frame} {frs : List Frame} :
    encodeList f (fr :: frs) c = some (ts, c2) ↔
      ∃ us c1 vs, f fr c = some (us, c1) ∧ encodeList f frs c1 = some (vs, c2) ∧ ts = us ++ vs := by
  rw [encodeList]
  rcases f fr c with _ | ⟨us, c1⟩
  · simp
  · rcases hrest : encodeList f frs c1 with _ | ⟨vs, c3⟩
    · simp [hrest]
    · simp [hrest, eq_comm, and_comm]

theorem withHead_eq_some {head : List Token} {r : Option (List Token × C)} :
    withHead head r = some (ts, c) ↔ ∃ us, r = some (us, c) ∧ ts = head ++ us := by
  rcases r with _ | ⟨us, c1⟩
  · simp [withHead]
  · simp [withHead, eq_comm, and_comm]

theorem encodePasses_cons_eq_some {M : CacheModel C} {cfg : RunCfg} {P Q : Image} {p : Pass} {ps : List Pass} :
    encodePasses M cfg P Q (p :: ps) c = some (ts, c2) ↔
      ∃ us c1 vs, encodeNode M cfg P Q p (cfg.maxdepth + 1) (rootFrame cfg.W cfg.H) c = some (us, c1) ∧
        encodePasses M cfg P Q ps c1 = some (vs, c2) ∧ ts = us ++ vs := by
  rw [encodePasses]
  rcases encodeNode M cfg P Q p (cfg.maxdepth + 1) (rootFrame cfg.W cfg.H) c with _ | ⟨us, c1⟩
  · simp
  · simp [withHead_eq_some]

variable {M : CacheModel C} {cfg : RunCfg} {P Q : Image} {p : Pass} {fr : Frame}

/-- A node that does not ask the cache gives its tokens, then what its children give (R185). -/
theorem encodeNode_succ {k : NodeClass} (hclass : classify cfg P Q fr p = k) (hk : k ≠ .cached) (n : Nat) (c : C) :
    encodeNode M cfg P Q p (n + 1) fr c =
      withHead (k.tokens cfg P p fr) (encodeList (encodeNode M cfg P Q p n) (k.children fr) c) := by
  cases k with
  | quad | splitx | splity => simp [encodeNode, hclass, NodeClass.tokens, NodeClass.children]
  | skip | flat | deep | leaf =>
    simp [encodeNode, hclass, NodeClass.tokens, NodeClass.children, encodeList, withHead]
  | cached => exact absurd rfl hk

/-- A CACHED node gives what the cache's answer makes of it (R185, R209). -/
theorem encodeNode_succ_cached (hclass : classify cfg P Q fr p = .cached) (n : Nat) (c : C) :
    encodeNode M cfg P Q p (n + 1) fr c =
      encodeCached cfg (keyOf cfg.bgra P fr p) (M.lookup c (keyOf cfg.bgra P fr p)) := by
  simp [encodeNode, hclass]

end

end Sys2Proof.Machine
end

section
/-! PROOF. The stack machine visits the nodes of a run in the order of the recursive definition (R173, R180, R183, R185). -/

namespace Sys2Proof.Machine

/-- With nothing written during the run, the image is what memory holds (R79). -/
theorem P_of_unstable_nil {s : State} (h : s.unstable = []) :
    s.P = fun x y => fourBytes s.mem (pixelAddr s.build s.cfg.W s.cfg.imgBase x y) := by
  funext x y
  exact pixelAt_of_unstable_nil h _

/-- With nothing written during the run, the reference is what memory holds (R79). -/
theorem Q_of_unstable_nil {s : State} (h : s.unstable = []) :
    s.Q = fun x y => fourBytes s.mem (pixelAddr s.build s.cfg.W s.cfg.refBase x y) := by
  funext x y
  exact pixelAt_of_unstable_nil h _

/-- A block between two nodes of a run whose pixel reads give memory's bytes, with nothing holding it up (R72, R173, R188). -/
structure Between (s : State) : Prop where
  free : s.Free
  phase : s.phase = .active
  queue : s.queue = []
  pending : s.pending = none
  unstable : s.unstable = []
  memErr : s.build.memErr = []

/-- Steps that send the tokens `ts`, leave the cache in `c` and the frames `stack` to be visited; of the rest they change the
working registers and the draw counter alone. -/
def Visits (s : State) (ts : List Token) (c : CacheState) (stack : List Frame) (t : State) : Prop :=
  Steps s t ∧ ∃ w k, t = { s.send ts with cache := c, stack := stack, work := w, freeCtr := k }

section
variable {s t u : State} {ts us : List Token} {c c' : CacheState} {st st' : List Frame}

theorem Visits.refl (hstack : s.stack = st) : Visits s [] s.cache st s :=
  ⟨.refl, s.work, s.freeCtr, by simp [← hstack]⟩

theorem Visits.trans (h : Visits s ts c st t) (h' : Visits t us c' st' u) : Visits s (ts ++ us) c' st' u := by
  obtain ⟨hsteps, w, k, rfl⟩ := h
  obtain ⟨hsteps', w', k', rfl⟩ := h'
  exact ⟨hsteps.trans hsteps', w', k', by rw [State.send_append]; rfl⟩

theorem Visits.between (h : Visits s ts c st t) (hs : Between s) : Between t := by
  obtain ⟨-, w, k, rfl⟩ := h
  exact { hs with free := { hs.free with } }

theorem Visits.cfg (h : Visits s ts c st t) : t.cfg = s.cfg := by
  obtain ⟨-, w, k, rfl⟩ := h
  rfl

theorem Visits.passes (h : Visits s ts c st t) : t.passes = s.passes := by
  obtain ⟨-, w, k, rfl⟩ := h
  rfl

theorem Visits.cache (h : Visits s ts c st t) : t.cache = c := by
  obtain ⟨-, w, k, rfl⟩ := h
  rfl

theorem Visits.stack (h : Visits s ts c st t) : t.stack = st := by
  obtain ⟨-, w, k, rfl⟩ := h
  rfl

/-- A visit reads and writes nothing that the images depend on but memory, which it leaves (R76). -/
theorem Visits.P (h : Visits s ts c st t) (hs : Between s) : t.P = s.P := by
  rw [P_of_unstable_nil hs.unstable, P_of_unstable_nil (h.between hs).unstable]
  obtain ⟨-, w, k, rfl⟩ := h
  rfl

theorem Visits.Q (h : Visits s ts c st t) (hs : Between s) : t.Q = s.Q := by
  rw [Q_of_unstable_nil hs.unstable, Q_of_unstable_nil (h.between hs).unstable]
  obtain ⟨-, w, k, rfl⟩ := h
  rfl

/-- Where no frame is left to be visited, the pass ends (R183). -/
theorem Visits.step_passEnd (h : Visits s ts c [] t) (hs : Between s) : step t = .next t.passEnd :=
  have ht := h.between hs
  Machine.step_passEnd ht.free.schedule ht.phase ht.queue h.stack

end

/-- What a node has queued is sent before anything else happens (R182). -/
theorem Between.visits_of_queued {s : State} (h : Between s) {ts : List Token} {c : CacheState} {st : List Frame} {w : Work}
    {k : Nat} (hsteps : Steps s { s with queue := ts, cache := c, stack := st, work := w, freeCtr := k }) :
    ∃ t, Visits s ts c st t := by
  have hdrain := State.Free.steps_drain (s := { s with queue := ts, cache := c, stack := st, work := w, freeCtr := k })
    { h.free with } h.phase rfl
  exact ⟨_, hsteps.trans hdrain, w, k, by simp [State.send, h.queue]⟩

/-- The state in which a CACHED node waits for the answer to its request (R41, R180). -/
def State.requested (s : State) (p : Pass) (fr : Frame) : State :=
  { s.popNode p fr with
    pending := some { frame := fr, head := splitTokens s.cfg, fmt := p, key := keyOf s.cfg.bgra s.P fr p }
    phase := .cacheWait }

section
variable {s : State} {p : Pass} {fr : Frame} {rest : List Frame} (h : Between s) (hpass : s.passes.head? = some p)
  (hstack : s.stack = fr :: rest)
include h hpass hstack

theorem Between.nodeReady : NodeReady s p fr rest :=
  { h with pass := hpass, stack := hstack, reads := fun _ _ => by simp [Build.errs, h.memErr] }

/-- A node that finishes in its node step sends its tokens and leaves its children to be visited (R180, R182). -/
theorem Between.visits_symbol {k : NodeClass} (hclass : s.classOf p fr = k) (hk : k ≠ .cached) :
    ∃ t, Visits s (k.tokens s.cfg s.P p fr) s.cache (k.children fr ++ rest) t := by
  subst hclass
  obtain ⟨i, hi⟩ := Option.ne_none_iff_exists'.1 fun hnone => hk (NodeClass.eq_cached_of_symbol_eq_none hnone)
  have hstep := (h.nodeReady hpass hstack).step_symbol h.free.schedule hi
  have hrest : (s.popNode p fr).stack = rest := by simp [hstack]
  rw [State.pushChildren, State.enqueue, hrest] at hstep
  exact h.visits_of_queued (.of_step hstep)

/-- A CACHED node sends the tokens the recursive definition gives for the cache's answer (R180, R209). -/
theorem Between.visits_cached (hclass : s.classOf p fr = .cached) {ts : List Token} {c : CacheState}
    (henc : encodeCached s.cfg (keyOf s.cfg.bgra s.P fr p) (cacheLookup s.cache (keyOf s.cfg.bgra s.P fr p)) = some (ts, c)) :
    ∃ t, Visits s ts c rest t := by
  have hrequest : step s = .next (s.requested p fr) := (h.nodeReady hpass hstack).step_request h.free.schedule hclass
  obtain ⟨hresponse, hcache⟩ :=
    step_response_of_encodeCached (s := s.requested p fr) h.free.schedule rfl rfl h.free.cache rfl henc
  have hrest : (s.requested p fr).stack = rest := by simp [State.requested, hstack]
  rw [State.resume, State.answered, hcache, hrest, ← h.pending, ← h.phase] at hresponse
  exact h.visits_of_queued ((Steps.of_step hrequest).tail hresponse)

end

/-- The machine visits every subtree as `EncodeNode` says when its recursion is bounded by `n` (R185). -/
def VisitsSubtrees (p : Pass) (n : Nat) : Prop :=
  ∀ {s : State} {fr : Frame} {rest : List Frame} {ts : List Token} {c : CacheState}, Between s → s.passes.head? = some p →
    s.stack = fr :: rest → encodeNode platformCache s.cfg s.P s.Q p n fr s.cache = some (ts, c) →
    ∃ t, Visits s ts c rest t

/-- Then it visits the subtrees of a list one after the other (R177). -/
theorem VisitsSubtrees.list {p : Pass} {n : Nat} (hn : VisitsSubtrees p n) {s : State} {frs rest : List Frame} {ts : List Token}
    {c : CacheState} (h : Between s) (hpass : s.passes.head? = some p) (hstack : s.stack = frs ++ rest)
    (henc : encodeList (encodeNode platformCache s.cfg s.P s.Q p n) frs s.cache = some (ts, c)) :
    ∃ t, Visits s ts c rest t := by
  induction frs generalizing s ts with
  | nil =>
    obtain ⟨rfl, rfl⟩ : [] = ts ∧ s.cache = c := by simpa [encodeList] using henc
    exact ⟨s, .refl hstack⟩
  | cons fr frs ih =>
    obtain ⟨us, c1, vs, hfirst, hrest, rfl⟩ := encodeList_cons_eq_some.1 henc
    obtain ⟨t, ht⟩ := hn h hpass hstack hfirst
    rw [← ht.cfg, ← ht.P h, ← ht.Q h, ← ht.cache] at hrest
    obtain ⟨u, hu⟩ := ih (ht.between h) (ht.passes ▸ hpass) ht.stack hrest
    exact ⟨u, ht.trans hu⟩

theorem visitsSubtrees (p : Pass) (n : Nat) : VisitsSubtrees p n := by
  induction n with
  | zero =>
    intro s fr rest ts c _ _ _ henc
    simp [encodeNode] at henc
  | succ n ih =>
    intro s fr rest ts c h hpass hstack henc
    by_cases hclass : s.classOf p fr = .cached
    · rw [encodeNode_succ_cached hclass] at henc
      exact h.visits_cached hpass hstack hclass henc
    · rw [encodeNode_succ (k := s.classOf p fr) rfl hclass, withHead_eq_some] at henc
      obtain ⟨us, hchildren, rfl⟩ := henc
      obtain ⟨t, ht⟩ := h.visits_symbol hpass hstack rfl hclass
      rw [← ht.cfg, ← ht.P h, ← ht.Q h, ← ht.cache] at hchildren
      obtain ⟨u, hu⟩ := ih.list (ht.between h) (ht.passes ▸ hpass) ht.stack hchildren
      exact ⟨u, ht.trans hu⟩

/-- The state in which the run that sends `ts` has completed (R184). -/
structure Completed (s : State) (ts : List Token) (c : CacheState) (t : State) : Prop where
  phase : t.phase = .idle
  regs : t.regs = (s.send ts).regs.complete
  sinks : t.sinks = (s.send ts).sinks
  cache : t.cache = c
  mem : t.mem = s.mem

/-- From the root of a pass the machine completes the passes that are left as the recursive definition says (R183 to R185). -/
theorem Between.completes_encodePasses {s : State} {p : Pass} {ps : List Pass} {ts : List Token} {c : CacheState}
    (h : Between s) (hpasses : s.passes = p :: ps) (hstack : s.stack = [rootFrame s.cfg.W s.cfg.H])
    (henc : encodePasses platformCache s.cfg s.P s.Q (p :: ps) s.cache = some (ts, c)) :
    ∃ t, Steps s t ∧ Completed s ts c t := by
  induction ps generalizing s p ts with
  | nil =>
    obtain ⟨us, c1, vs, hpass, hrest, rfl⟩ := encodePasses_cons_eq_some.1 henc
    obtain ⟨rfl, rfl⟩ : [] = vs ∧ c1 = c := by simpa [encodePasses] using hrest
    obtain ⟨t, ht⟩ := visitsSubtrees p _ h (by simp [hpasses]) hstack hpass
    have hend := ht.step_passEnd h
    rw [passEnd_of_last (ht.passes.trans hpasses)] at hend
    obtain ⟨hsteps, w, k, rfl⟩ := ht
    rw [List.append_nil]
    exact ⟨_, hsteps.tail hend, rfl, rfl, rfl, rfl, rfl⟩
  | cons q ps ih =>
    obtain ⟨us, c1, vs, hpass, hrest, rfl⟩ := encodePasses_cons_eq_some.1 henc
    obtain ⟨t, ht⟩ := visitsSubtrees p _ h (by simp [hpasses]) hstack hpass
    have hend := ht.step_passEnd h
    rw [passEnd_of_next (ht.passes.trans hpasses)] at hend
    rw [← ht.cfg, ← ht.P h, ← ht.Q h, ← ht.cache] at hrest
    have hb := ht.between h
    obtain ⟨u, hsteps, hu⟩ := ih (s := { t with passes := q :: ps, stack := [rootFrame t.cfg.W t.cfg.H] })
      { hb with free := { hb.free with } } rfl rfl hrest
    obtain ⟨hvisit, w, k, rfl⟩ := ht
    refine ⟨u, (hvisit.tail hend).trans hsteps, { hu with regs := ?_, sinks := ?_ }⟩
    · rw [hu.regs, State.send_append]
      rfl
    · rw [hu.sinks, State.send_append]
      rfl

/-- Settles O52: from the root of the first pass, the machine visits the nodes as the recursive definition does. -/
theorem stackMachineTransfersEncodeRun : Obligations.StackMachineTransfersEncodeRun := by
  unfold Obligations.StackMachineTransfersEncodeRun
  intro s ts c1 hfree hphase hqueue hpending hpasses hstack hunstable hmemErr henc
  obtain ⟨p, ps, hcons⟩ := List.exists_cons_of_ne_nil (passList_ne_nil s.cfg.colordiff)
  rw [encodeRun, hcons] at henc
  obtain ⟨t, hsteps, ht⟩ := Between.completes_encodePasses ⟨hfree, hphase, hqueue, hpending, hunstable, hmemErr⟩
    (hpasses.trans hcons) hstack henc
  obtain ⟨n, hrun⟩ := hsteps.exists_run
  exact ⟨n, t, hrun, ht.phase, congrArg Regs.done ht.regs, congrArg Regs.busy ht.regs, ht.cache, ht.mem,
    congrArg Sinks.cmd ht.sinks, congrArg Sinks.idx ht.sinks, congrArg Sinks.pix ht.sinks,
    congrArg Regs.cmdBits ht.regs, congrArg Regs.idxCount ht.regs, congrArg Regs.pixBytes ht.regs⟩

end Sys2Proof.Machine
end

section
/-! PROOF. The geometry of splits: how often an extent can be halved, and what the children cover (R176 to R179). -/

namespace Sys2Proof.Machine

/-! ### Halvings -/

theorem kDepth_le_of_le_two_pow {M : Nat} (hM : 1 ≤ M) {n e : Nat} (he : e ≤ 2 ^ n) : kDepth M e ≤ n := by
  induction n generalizing e with
  | zero => rw [kDepth_of_le (he.trans hM)]
  | succ n ih =>
    by_cases hsmall : e ≤ M
    · simp [kDepth_of_le hsmall]
    · have hhalf : kDepth M (e - e / 2) ≤ n := ih (by omega)
      rw [kDepth_of_gt hM (by omega)]
      omega

/-- Settles O18: an extent above `M` is halved once more than its larger half, and `n` halvings bring `2^n` down to 1. -/
theorem depthFunctionMeetsItsEquation : Obligations.DepthFunctionMeetsItsEquation := by
  unfold Obligations.DepthFunctionMeetsItsEquation
  refine fun M e hM => ⟨?_, fun he => kDepth_le_of_le_two_pow hM he.le⟩
  split
  · next hsmall => exact kDepth_of_le hsmall
  · next hlarge => exact kDepth_of_gt hM (by omega)

/-- How many halvings are left to a frame: those of the side that has more (R178). -/
def Frame.halvingsLeft (M : Nat) (fr : Frame) : Nat := max (kDepth M fr.w) (kDepth M fr.h)

/-- A frame each of whose sides is at most `M`, or at most a half of that of `fr`, has fewer halvings left than `fr`. -/
theorem Frame.halvingsLeft_lt {M : Nat} {fr f : Frame} (hM : 1 ≤ M) (hbig : M < fr.w ∨ M < fr.h)
    (hw : f.w ≤ max M (fr.w - fr.w / 2)) (hh : f.h ≤ max M (fr.h - fr.h / 2)) :
    f.halvingsLeft M < fr.halvingsLeft M := by
  have hpos : 0 < fr.halvingsLeft M := by
    have pos_of_gt : ∀ {e}, M < e → 0 < kDepth M e := fun he => by rw [kDepth_of_gt hM he]; omega
    exact lt_max_iff.2 (hbig.imp pos_of_gt pos_of_gt)
  have shrink : ∀ {e e' : Nat}, e' ≤ max M (e - e / 2) → kDepth M e ≤ fr.halvingsLeft M →
      kDepth M e' < fr.halvingsLeft M := fun {e e'} hle hparent => by
    by_cases hsmall : e' ≤ M
    · rwa [kDepth_of_le hsmall]
    · exact (kDepth_half_lt hM (by omega) (by omega)).trans_le hparent
  exact max_lt (shrink hw (le_max_left ..)) (shrink hh (le_max_right ..))

/-- The class that the split rule gives a frame that may split (R176). -/
def SplitRule (M : Nat) (fr : Frame) (k : NodeClass) : Prop :=
  (k = .quad ∧ M < fr.w ∧ M < fr.h) ∨ (k = .splitx ∧ M < fr.w ∧ fr.h ≤ M) ∨ (k = .splity ∧ fr.w ≤ M ∧ M < fr.h)

/-- A child has, on an axis that is split, at most a half of its parent's side, and on the other at most `M` (R177). -/
theorem SplitRule.child_sides {M : Nat} {fr : Frame} {k : NodeClass} (h : SplitRule M fr k) :
    ∀ f ∈ k.children fr, f.w ≤ max M (fr.w - fr.w / 2) ∧ f.h ≤ max M (fr.h - fr.h / 2) := by
  obtain ⟨rfl, hw, hh⟩ | ⟨rfl, hw, hh⟩ | ⟨rfl, hw, hh⟩ := h
  all_goals
    simp only [NodeClass.children, quadChildren, splitxChildren, splityChildren, List.forall_mem_cons, List.not_mem_nil,
      false_implies, implies_true, and_true, Frame.w, Frame.h, Frame.xm, Frame.ym] at *
    omega

/-- Every child of a split has fewer halvings left than its parent (R177, R178). -/
theorem SplitRule.halvingsLeft_lt {M : Nat} {fr f : Frame} {k : NodeClass} (h : SplitRule M fr k) (hM : 1 ≤ M)
    (hf : f ∈ k.children fr) : f.halvingsLeft M < fr.halvingsLeft M := by
  have hbig : M < fr.w ∨ M < fr.h := by
    obtain ⟨-, hw, -⟩ | ⟨-, hw, -⟩ | ⟨-, -, hh⟩ := h
    exacts [.inl hw, .inl hw, .inr hh]
  obtain ⟨hw, hh⟩ := h.child_sides f hf
  exact Frame.halvingsLeft_lt hM hbig hw hh

/-- Settles O51: on a split axis both halves have a halving less left, and an axis that is not split has none. -/
theorem childrenAreShallower : Obligations.ChildrenAreShallower := by
  unfold Obligations.ChildrenAreShallower
  rintro M fr c hM - - (⟨hw, hh, hc⟩ | ⟨hw, hh, hc⟩ | ⟨hw, hh, hc⟩)
  · exact SplitRule.halvingsLeft_lt (k := .quad) (.inl ⟨rfl, hw, hh⟩) hM hc
  · exact SplitRule.halvingsLeft_lt (k := .splitx) (.inr (.inl ⟨rfl, hw, hh⟩)) hM hc
  · exact SplitRule.halvingsLeft_lt (k := .splity) (.inr (.inr ⟨rfl, hw, hh⟩)) hM hc

/-! ### The cover of a region -/

/-- 1 where a pixel lies in the region, 0 elsewhere (R13). -/
def Frame.covers (fr : Frame) (x y : Nat) : Nat := if fr.x1 ≤ x ∧ x < fr.x2 ∧ fr.y1 ≤ y ∧ y < fr.y2 then 1 else 0

/-- How many frames of a list a pixel lies in is the sum of what each one covers. -/
theorem length_filter_eq_sum_covers (cs : List Frame) (x y : Nat) :
    (cs.filter fun c => decide (c.x1 ≤ x ∧ x < c.x2 ∧ c.y1 ≤ y ∧ y < c.y2)).length =
      (cs.map fun c => c.covers x y).sum := by
  induction cs with
  | nil => rfl
  | cons c cs ih =>
    rw [← List.countP_eq_length_filter] at ih ⊢
    rw [List.countP_cons, ih, List.map_cons, List.sum_cons, Nat.add_comm]
    simp [Frame.covers]

section
variable {x1 y1 x2 y2 : Nat} (d d' x y : Nat)

/-- A region cut at a column is its left and its right part (R177). -/
theorem covers_cut_x {xm : Nat} (h1 : x1 ≤ xm) (h2 : xm ≤ x2) :
    Frame.covers ⟨x1, y1, xm, y2, d⟩ x y + Frame.covers ⟨xm, y1, x2, y2, d⟩ x y = Frame.covers ⟨x1, y1, x2, y2, d'⟩ x y := by
  simp only [Frame.covers]
  split_ifs <;> omega

/-- A region cut at a row is its top and its bottom part (R177). -/
theorem covers_cut_y {ym : Nat} (h1 : y1 ≤ ym) (h2 : ym ≤ y2) :
    Frame.covers ⟨x1, y1, x2, ym, d⟩ x y + Frame.covers ⟨x1, ym, x2, y2, d⟩ x y = Frame.covers ⟨x1, y1, x2, y2, d'⟩ x y := by
  simp only [Frame.covers]
  split_ifs <;> omega

end

section
variable {fr : Frame}

/-- The middle of an axis of extent at least 2 lies strictly inside it (R177). -/
theorem Frame.xm_between (h : 2 ≤ fr.w) : fr.x1 < fr.xm ∧ fr.xm < fr.x2 := by
  simp only [Frame.w, Frame.xm] at *
  omega

theorem Frame.ym_between (h : 2 ≤ fr.h) : fr.y1 < fr.ym ∧ fr.ym < fr.y2 := by
  simp only [Frame.h, Frame.ym] at *
  omega

/-- Frames one level down, none of them empty, whose covers add up to the parent's. -/
theorem partition_of_covers {cs : List Frame} (hcs : ∀ c ∈ cs, c.x1 < c.x2 ∧ c.y1 < c.y2 ∧ c.d = fr.d + 1)
    (hcovers : ∀ x y, (cs.map fun c => c.covers x y).sum = fr.covers x y) : Partition fr cs :=
  ⟨hcs, fun x y => (length_filter_eq_sum_covers cs x y).trans (hcovers x y)⟩

theorem partition_splitx (hw : 2 ≤ fr.w) (hy : fr.y1 < fr.y2) : Partition fr (splitxChildren fr) := by
  obtain ⟨h1, h2⟩ := Frame.xm_between hw
  refine partition_of_covers (by simp [splitxChildren, h1, h2, hy]) fun x y => ?_
  simpa [splitxChildren] using covers_cut_x (fr.d + 1) fr.d x y h1.le h2.le

theorem partition_splity (hh : 2 ≤ fr.h) (hx : fr.x1 < fr.x2) : Partition fr (splityChildren fr) := by
  obtain ⟨h1, h2⟩ := Frame.ym_between hh
  refine partition_of_covers (by simp [splityChildren, h1, h2, hx]) fun x y => ?_
  simpa [splityChildren] using covers_cut_y (fr.d + 1) fr.d x y h1.le h2.le

/-- The left children are the left half cut at the middle row, and the right ones the right half (R177). -/
theorem partition_quad (hw : 2 ≤ fr.w) (hh : 2 ≤ fr.h) : Partition fr (quadChildren fr) := by
  obtain ⟨hx1, hx2⟩ := Frame.xm_between hw
  obtain ⟨hy1, hy2⟩ := Frame.ym_between hh
  refine partition_of_covers (by simp [quadChildren, hx1, hx2, hy1, hy2]) fun x y => ?_
  have hleft := covers_cut_y (x1 := fr.x1) (x2 := fr.xm) (fr.d + 1) fr.d x y hy1.le hy2.le
  have hright := covers_cut_y (x1 := fr.xm) (x2 := fr.x2) (fr.d + 1) fr.d x y hy1.le hy2.le
  calc ((quadChildren fr).map fun c => c.covers x y).sum
    _ = Frame.covers ⟨fr.x1, fr.y1, fr.xm, fr.y2, fr.d⟩ x y + Frame.covers ⟨fr.xm, fr.y1, fr.x2, fr.y2, fr.d⟩ x y := by
      rw [← hleft, ← hright]
      simp [quadChildren, Nat.add_assoc]
    _ = fr.covers x y := covers_cut_x fr.d fr.d x y hx1.le hx2.le

end

/-- Settles O50: a split cuts its region at the middle of each split axis, which lies strictly inside. -/
theorem childrenPartitionTheirParent : Obligations.ChildrenPartitionTheirParent := by
  unfold Obligations.ChildrenPartitionTheirParent
  refine fun fr hx hy => ⟨partition_quad, fun hw => partition_splitx hw hy, fun hh => partition_splity hh hx, ?_⟩
  simp only [Frame.xm, Frame.ym]
  omega

end Sys2Proof.Machine
end

section
/-! PROOF. Without a cache the recursion reaches its leaves before its bound (R176, R179, R185; log entry 26). -/

namespace Sys2Proof.Machine

section
variable {C : Type} {M : CacheModel C} {cfg : RunCfg} {P Q : Image}

theorem encodeList_completes {f : Frame → C → Option (List Token × C)} {c : C} {frs : List Frame}
    (hf : ∀ fr ∈ frs, ∃ ts, f fr c = some (ts, c)) : ∃ ts, encodeList f frs c = some (ts, c) := by
  induction frs with
  | nil => exact ⟨[], rfl⟩
  | cons fr frs ih =>
    obtain ⟨⟨us, hus⟩, hrest⟩ := List.forall_mem_cons.1 hf
    obtain ⟨vs, hvs⟩ := ih hrest
    exact ⟨us ++ vs, encodeList_cons_eq_some.2 ⟨us, c, vs, hus, hvs, rfl⟩⟩

/-- A class that splits is the one the split rule gives the frame (R175, R176). -/
theorem classifyNonFlat_of_isSplit {p : Pass} {fr : Frame} {k : NodeClass} (hclass : classify cfg P Q fr p = k)
    (hsplit : k.isSplit = true) : classifyNonFlat cfg fr = k := by
  rw [← hclass]
  apply classifyNonFlat_of_classify <;> rw [hclass] <;> rintro rfl <;> simp [NodeClass.isSplit] at hsplit

/-- The children of a node lie one level down, and the node is not at the depth ceiling (R176, R177). -/
theorem depth_of_mem_children {p : Pass} {fr f : Frame} (hf : f ∈ (classify cfg P Q fr p).children fr) :
    f.d = fr.d + 1 ∧ fr.d ≠ cfg.maxdepth := by
  have hsplit := NodeClass.isSplit_of_mem_children hf
  exact ⟨NodeClass.children_depth hf, (splits_of_classifyNonFlat (classifyNonFlat_of_isSplit rfl hsplit) hsplit).1⟩

variable (hcache : cfg.cacheEn = false)
include hcache

theorem classify_ne_cached (p : Pass) (fr : Frame) : classify cfg P Q fr p ≠ .cached := by
  intro hclass
  have hnonflat : classifyNonFlat cfg fr = classify cfg P Q fr p :=
    classifyNonFlat_of_classify (by simp [hclass]) (by simp [hclass])
  obtain ⟨hen, -⟩ := cached_of_classifyNonFlat (hnonflat.trans hclass)
  simp [hcache] at hen

/-- A node at a depth the bound leaves room for gives its tokens and leaves the cache alone. -/
theorem encodeNode_completes (p : Pass) (c : C) {n : Nat} {fr : Frame} (hd : fr.d ≤ cfg.maxdepth)
    (hn : cfg.maxdepth < n + fr.d) : ∃ ts, encodeNode M cfg P Q p n fr c = some (ts, c) := by
  induction n generalizing fr with
  | zero => omega
  | succ n ih =>
    have hchildren : ∀ f ∈ (classify cfg P Q fr p).children fr, ∃ ts, encodeNode M cfg P Q p n f c = some (ts, c) :=
      fun f hf => by
        obtain ⟨hfd, hne⟩ := depth_of_mem_children hf
        exact ih (by omega) (by omega)
    obtain ⟨ts, hts⟩ := encodeList_completes hchildren
    rw [encodeNode_succ rfl (classify_ne_cached hcache p fr), hts]
    exact ⟨_, rfl⟩

theorem encodePasses_completes (ps : List Pass) (c : C) : ∃ ts, encodePasses M cfg P Q ps c = some (ts, c) := by
  induction ps with
  | nil => exact ⟨[], rfl⟩
  | cons p ps ih =>
    obtain ⟨us, hus⟩ := encodeNode_completes (M := M) (P := P) (Q := Q) hcache p c (n := cfg.maxdepth + 1)
      (fr := rootFrame cfg.W cfg.H) (Nat.zero_le _) (Nat.lt_succ_self _)
    obtain ⟨vs, hvs⟩ := ih
    exact ⟨us ++ vs, encodePasses_cons_eq_some.2 ⟨us, c, vs, hus, hvs, rfl⟩⟩

end

/-- Settles O55: the root is at depth 0, and no node below the depth ceiling is entered. -/
theorem encodeWithoutCacheCompletes : Obligations.EncodeWithoutCacheCompletes := by
  unfold Obligations.EncodeWithoutCacheCompletes
  exact fun C M cfg P Q c0 hcache => encodePasses_completes hcache (passList cfg.colordiff) c0

end Sys2Proof.Machine
end

section
/-! PROOF. A read error ends the node step, whatever its node would have been (R181, R283, R291). -/

namespace Sys2Proof.Machine

section
variable {s : State} {p : Pass} {fr : Frame} {a : Nat}

theorem memRead_isNone (s : State) (a : Nat) : (s.memRead a).isNone = Build.errs s.build a := by
  unfold State.memRead
  split <;> simp_all

/-- The first error of a read set is at the first of its addresses that errs (R181). -/
theorem firstError_of_readSet {before after : List Nat} (hreads : s.readSet fr = before ++ a :: after)
    (hbefore : ∀ b ∈ before, Build.errs s.build b = false) (ha : Build.errs s.build a = true) : s.firstError fr = some a := by
  have hnone : before.find? (fun b => (s.memRead b).isNone) = none := by
    simpa [List.find?_eq_none, memRead_isNone] using hbefore
  rw [State.firstError, hreads, List.find?_append, hnone, Option.none_or]
  exact List.find?_cons_of_pos (by rw [memRead_isNone, ha])

/-- The block's own step faults at the error too, whether its node would have been a symbol's or CACHED (R291, R294). -/
theorem ownStep_readError (henabled : s.enabledNode = some (p, fr)) (herr : s.firstError fr = some a) :
    ownStep s = .next ((s.popNode p fr).raiseFault .mem (BitVec.ofNat 32 a)) := by
  obtain ⟨hphase, hqueue, -, rest, hstack⟩ := enabledNode_eq_some.1 henabled
  have hnext := nextSymbol_of_enabledNode henabled
  rcases hsymbol : (s.classOf p fr).symbol with _ | i
  · rw [ownStep_request hphase hqueue hstack (hnext.trans hsymbol)]
    exact nodeStep_error _ _ henabled herr
  · rw [ownStep_symbol hphase hqueue hstack (hnext.trans hsymbol), exec_symbol hsymbol]
    exact nodeStep_error _ _ henabled herr

theorem faultEntered_readError (s : State) (p : Pass) (fr : Frame) (info : Word) :
    FaultEntered s ((s.popNode p fr).raiseFault .mem info) 8 info :=
  ⟨rfl, rfl, rfl, rfl, rfl, rfl, rfl, fun _ => rfl, rfl, rfl, rfl, rfl, rfl, rfl⟩

end

/-- Settles O31: no class is looked at before the read set's first error. -/
theorem readErrorFaults : Obligations.ReadErrorFaults := by
  unfold Obligations.ReadErrorFaults
  intro s p fr rest before after a i hi hphase hqueue hpass hstack hreads hbefore ha
  have henabled : s.enabledNode = some (p, fr) :=
    enabledNode_eq_some.2 ⟨hphase, hqueue, List.head?_eq_some_iff.1 hpass, rest, hstack⟩
  have herr := firstError_of_readSet hreads hbefore ha
  have hfault := faultEntered_readError s p fr (BitVec.ofNat 32 a)
  obtain ⟨k, hk⟩ : ∃ k : NodeClass, k.symbol = some i := by
    simp only [List.mem_cons, List.not_mem_nil, or_false] at hi
    obtain rfl | rfl | rfl | rfl | rfl | rfl | rfl := hi
    exacts [⟨.skip, rfl⟩, ⟨.flat, rfl⟩, ⟨.quad, rfl⟩, ⟨.splitx, rfl⟩, ⟨.splity, rfl⟩, ⟨.deep, rfl⟩, ⟨.leaf, rfl⟩]
  refine ⟨⟨_, ?_, hfault, rfl⟩, fun hsched => ⟨_, ?_, hfault, rfl⟩⟩
  · rw [exec_symbol hk]
    exact nodeStep_error k _ henabled herr
  · rw [step_of_schedule_nil hsched]
    exact ownStep_readError henabled herr

end Sys2Proof.Machine
end

section
/-! PROOF. The step with no input waiting, and the same step when an event gives the block the move (R173, R180, R183, R209). -/

namespace Sys2Proof.Machine

/-! ### The schedule -/

/-- The state with another schedule: nothing but the head of the schedule is looked at by a step. -/
def State.withSchedule (s : State) (rest : List Event) : State := { s with schedule := rest }

/-- An outcome with `rest` as the schedule of its next state. -/
def outcomeWithSchedule (rest : List Event) : Host.Outcome State Fault Refusal → Host.Outcome State Fault Refusal
  | .next t => .next (t.withSchedule rest)
  | .fault r => .fault r
  | .refused r => .refused r

section
variable (s : State) (rest : List Event)

@[simp] theorem State.withSchedule_cfg : (s.withSchedule rest).cfg = s.cfg := rfl
@[simp] theorem State.withSchedule_phase : (s.withSchedule rest).phase = s.phase := rfl
@[simp] theorem State.withSchedule_passes : (s.withSchedule rest).passes = s.passes := rfl
@[simp] theorem State.withSchedule_pending : (s.withSchedule rest).pending = s.pending := rfl
@[simp] theorem State.withSchedule_cacheReady : (s.withSchedule rest).cacheReady = s.cacheReady := rfl
@[simp] theorem State.withSchedule_nextSymbol : (s.withSchedule rest).nextSymbol = s.nextSymbol := rfl

/-- A node step does not look at the schedule, unless the effect of its class does. -/
theorem nodeStep_withSchedule (want : NodeClass) {act act' : Pass → Frame → State → State}
    (hact : ∀ p fr, act' p fr ((s.popNode p fr).withSchedule rest) = (act p fr (s.popNode p fr)).withSchedule rest) :
    (s.withSchedule rest).nodeStep want act' = outcomeWithSchedule rest (s.nodeStep want act) := by
  have henabled : (s.withSchedule rest).enabledNode = s.enabledNode := rfl
  have hfirst : (s.withSchedule rest).firstError = s.firstError := rfl
  have hclass : (s.withSchedule rest).classOf = s.classOf := rfl
  simp only [State.nodeStep, henabled, hfirst, hclass]
  rcases s.enabledNode with _ | ⟨p, fr⟩
  · rfl
  · dsimp only
    rcases s.firstError fr with _ | a
    · dsimp only
      split
      · exact congrArg Host.Outcome.next (hact p fr)
      · rfl
    · rfl

/-- An answer of the cache does not look at it either. -/
theorem cacheResponse_withSchedule {act act' : Pending → State → Resp → Host.Outcome State Fault Refusal}
    (hact : ∀ pd r, act' pd ((s.answered pd).withSchedule rest) r = outcomeWithSchedule rest (act pd (s.answered pd) r)) :
    (s.withSchedule rest).cacheResponse act' = outcomeWithSchedule rest (s.cacheResponse act) := by
  simp only [State.cacheResponse, State.withSchedule_phase, State.withSchedule_pending]
  split
  · exact hact _ _
  · rfl

theorem exec_response_withSchedule {i : Instr} (hi : i = .hit ∨ i = .miss) :
    exec i (s.withSchedule rest) = outcomeWithSchedule rest (exec i s) := by
  obtain rfl | rfl := hi
  all_goals
    simp only [exec, execHit, execMiss]
    refine cacheResponse_withSchedule s rest fun pd r => ?_
    cases r with
    | hit j =>
      by_cases hj : j < 2 ^ s.cfg.indexbits
      · simp only [State.withSchedule_cfg, hj, if_true]
        rfl
      · simp only [State.withSchedule_cfg, hj, if_false]
        rfl
    | inserted => rfl
    | error => rfl

/-- No symbol the block asks for looks at the schedule. -/
theorem exec_nextSymbol_withSchedule {i : Instr} (hi : s.nextSymbol = some i) :
    exec i (s.withSchedule rest) = outcomeWithSchedule rest (exec i s) := by
  obtain ⟨k, hk⟩ | hresp := nextSymbol_kinds hi
  · rw [exec_symbol hk, exec_symbol hk]
    exact nodeStep_withSchedule s rest k fun _ _ => rfl
  · exact exec_response_withSchedule s rest hresp

theorem passEnd_withSchedule : (s.withSchedule rest).passEnd = s.passEnd.withSchedule rest := by
  simp only [State.passEnd, State.withSchedule_passes]
  split <;> rfl

/-- The block's own step does not look at the schedule. -/
theorem ownStep_withSchedule : ownStep (s.withSchedule rest) = outcomeWithSchedule rest (ownStep s) := by
  rcases hphase : s.phase with _ | _ | _
  case idle =>
    rw [ownStep_idle hphase, ownStep_idle (s := s.withSchedule rest) hphase, outcomeWithSchedule]
  case active =>
    rcases hqueue : s.queue with _ | ⟨tok, q⟩
    · rcases hstack : s.stack with _ | ⟨fr, frs⟩
      · rw [ownStep_passEnd hphase hqueue hstack, ownStep_passEnd (s := s.withSchedule rest) hphase hqueue hstack,
          passEnd_withSchedule, outcomeWithSchedule]
      · rcases hsymbol : s.nextSymbol with _ | i
        · rw [ownStep_request hphase hqueue hstack hsymbol,
            ownStep_request (s := s.withSchedule rest) hphase hqueue hstack hsymbol]
          exact nodeStep_withSchedule s rest .cached fun _ _ => rfl
        · rw [ownStep_symbol hphase hqueue hstack hsymbol,
            ownStep_symbol (s := s.withSchedule rest) hphase hqueue hstack hsymbol]
          exact exec_nextSymbol_withSchedule s rest hsymbol
    · rw [ownStep_transfer hphase hqueue, ownStep_transfer (s := s.withSchedule rest) hphase hqueue, outcomeWithSchedule]
      exact congrArg Host.Outcome.next
        (apply_ite (State.withSchedule · rest) (s.sinks.accepts tok.port = true) (s.transfer tok q) s).symm
  case cacheWait =>
    rcases hready : s.cacheReady with _ | _
    · rw [ownStep_wait hphase hready, ownStep_wait (s := s.withSchedule rest) hphase hready, outcomeWithSchedule]
    · rcases hsymbol : s.nextSymbol with _ | i
      · simp [ownStep, hphase, hready, hsymbol, outcomeWithSchedule]
      · rw [ownStep_response hphase hready hsymbol, ownStep_response (s := s.withSchedule rest) hphase hready hsymbol]
        exact exec_nextSymbol_withSchedule s rest hsymbol

end

/-! ### What the step runs -/

/-- Settles O7: in ACTIVE the next symbol is that of the node's class, in CACHE_WAIT that of the answer, and an event that gives
the block the move changes only the schedule. -/
theorem stepRunsTheSelectedSymbol : Obligations.StepRunsTheSelectedSymbol := by
  unfold Obligations.StepRunsTheSelectedSymbol
  refine ⟨?_, ?_, ?_, ?_⟩
  · intro s p fr rest i hsched hphase hqueue hpass hstack hsymbol
    have henabled : s.enabledNode = some (p, fr) :=
      enabledNode_eq_some.2 ⟨hphase, hqueue, List.head?_eq_some_iff.1 hpass, rest, hstack⟩
    rw [step_of_schedule_nil hsched,
      ownStep_symbol hphase hqueue hstack ((nextSymbol_of_enabledNode henabled).trans hsymbol)]
  · intro s p fr rest hsched hphase hqueue hpass hstack hclass
    have henabled : s.enabledNode = some (p, fr) :=
      enabledNode_eq_some.2 ⟨hphase, hqueue, List.head?_eq_some_iff.1 hpass, rest, hstack⟩
    have hnext : s.nextSymbol = none := by rw [nextSymbol_of_enabledNode henabled, hclass, NodeClass.symbol]
    rw [step_of_schedule_nil hsched, ownStep_request hphase hqueue hstack hnext]
  · exact fun s pd => step_response
  · intro s rest hsched
    have hown : step s = outcomeWithSchedule rest (step (s.withSchedule [])) :=
      (step_of_schedule_cons hsched).trans (ownStep_withSchedule (s.withSchedule []) rest)
    refine ⟨fun t ht => ?_, fun r hr => ?_⟩
    · exact hown.trans (congrArg (outcomeWithSchedule rest) ht)
    · exact hown.trans (congrArg (outcomeWithSchedule rest) hr)

/-- Settles O37: the pass end looks at the passes left, and nothing else does anything where queue and stack are empty. -/
theorem passEndBeginsTheNextPassOrCompletes : Obligations.PassEndBeginsTheNextPassOrCompletes := by
  unfold Obligations.PassEndBeginsTheNextPassOrCompletes
  intro s hsched hphase hqueue hstack
  rw [step_passEnd hsched hphase hqueue hstack]
  exact ⟨fun p q ps hpasses => congrArg _ (passEnd_of_next hpasses), fun p hpasses => congrArg _ (passEnd_of_last hpasses)⟩

end Sys2Proof.Machine
end

section
/-! PROOF. Every run ends: each step that nothing holds up takes away a part of the work left, or ends the run (R179, R188). -/

namespace Sys2Proof.Machine

/-! ### What a block that nothing holds up can do -/

/-- The moves of a running block that neither a sink nor the cache holds up (R180, R182, R183, R209). -/
inductive Move (s : State) : State → Prop where
  /-- The head token is transferred (R182). -/
  | transfer {tok : Token} {q : List Token} (hqueue : s.queue = tok :: q) : Move s (s.transfer tok q)
  /-- The pass ends (R183, R184). -/
  | passEnd : Move s s.passEnd
  /-- A node queues tokens and leaves its children in its place (R180). -/
  | node {p : Pass} {fr : Frame} {rest : List Frame} {k : NodeClass} {ts : List Token} (hstack : s.stack = fr :: rest)
      (hk : k.isSplit = true → classifyNonFlat s.cfg fr = k) :
      Move s (((s.popNode p fr).enqueue ts).pushChildren (k.children fr))
  /-- A CACHED node asks the cache (R180). -/
  | request {p : Pass} {fr : Frame} {rest : List Frame} (hstack : s.stack = fr :: rest) : Move s (s.requested p fr)
  /-- The node that waited is finished (R207, R208). -/
  | resume {pd : Pending} {ts : List Token} (hphase : s.phase = .cacheWait) : Move s ((s.answered pd).resume ts)
  /-- A read or the cache fails (R291, R292): the run is over, so what else the fault leaves is not said here. -/
  | fault {u : State} {f : RunFault} {info : Word} : Move s (u.raiseFault f info)

section
variable {s t : State}

/-- A node step whose effect is a move is one, whether or not its reads err (R180, R181). -/
theorem move_of_nodeStep {want : NodeClass} {act : Pass → Frame → State → State} (hstep : s.nodeStep want act = .next t)
    (hact : ∀ p fr rest, s.stack = fr :: rest → s.classOf p fr = want → Move s (act p fr (s.popNode p fr))) : Move s t := by
  obtain ⟨p, fr, henabled, ⟨a, -, rfl⟩ | ⟨-, hclass, rfl⟩⟩ := nodeStep_next hstep
  · exact .fault
  · obtain ⟨-, -, -, rest, hstack⟩ := enabledNode_eq_some.1 henabled
    exact hact p fr rest hstack hclass

/-- What the block asks for in a node step or an answer of the cache is a move (R175, R209). -/
theorem move_of_exec_nextSymbol {i : Instr} (hi : s.nextSymbol = some i) (hexec : exec i s = .next t) : Move s t := by
  obtain ⟨k, hk⟩ | hresp := nextSymbol_kinds hi
  · rw [exec_symbol hk] at hexec
    exact move_of_nodeStep hexec fun p fr rest hstack hclass =>
      .node hstack (classifyNonFlat_of_isSplit (P := s.P) (Q := s.Q) (p := p) hclass)
  · obtain ⟨pd, hphase, -, rfl | ⟨tail, -, rfl⟩⟩ := exec_response_next hresp hexec
    · exact .fault
    · exact .resume hphase

/-- Every step of a running block that nothing holds up is a move. -/
theorem State.Free.move_of_ownStep (h : s.Free) (hphase : s.phase ≠ .idle) (hown : ownStep s = .next t) : Move s t := by
  rcases hp : s.phase with _ | _ | _
  case idle => exact absurd hp hphase
  case active =>
    rcases hqueue : s.queue with _ | ⟨tok, q⟩
    · rcases hstack : s.stack with _ | ⟨fr, rest⟩
      · rw [ownStep_passEnd hp hqueue hstack, Host.Outcome.next.injEq] at hown
        exact hown ▸ .passEnd
      · rcases hsymbol : s.nextSymbol with _ | i
        · rw [ownStep_request hp hqueue hstack hsymbol] at hown
          exact move_of_nodeStep hown fun p fr rest hstack _ => .request hstack
        · rw [ownStep_symbol hp hqueue hstack hsymbol] at hown
          exact move_of_exec_nextSymbol hsymbol hown
    · rw [ownStep_transfer hp hqueue, if_pos (h.accepts _), Host.Outcome.next.injEq] at hown
      exact hown ▸ .transfer hqueue
  case cacheWait =>
    rcases hsymbol : s.nextSymbol with _ | i
    · simp [ownStep, hp, h.cache, hsymbol] at hown
    · rw [ownStep_response hp h.cache hsymbol] at hown
      exact move_of_exec_nextSymbol hsymbol hown

end

/-! ### The work that is left -/

/-- A measure of the work of a subtree: more than that of four frames with a halving less (R177, R178). -/
def Frame.work (M : Nat) (fr : Frame) : Nat := 5 ^ (fr.halvingsLeft M + 1)

/-- The work of the frames still to be visited. -/
def workOf (M : Nat) (frs : List Frame) : Nat := (frs.map (Frame.work M)).sum

@[simp] theorem workOf_cons (M : Nat) (fr : Frame) (frs : List Frame) :
    workOf M (fr :: frs) = fr.work M + workOf M frs := by
  simp [workOf]

@[simp] theorem workOf_append (M : Nat) (frs gs : List Frame) : workOf M (frs ++ gs) = workOf M frs + workOf M gs := by
  simp [workOf]

/-- Even a frame that asks the cache has work left once the request is counted. -/
theorem Frame.one_lt_work (M : Nat) (fr : Frame) : 1 < fr.work M := Nat.one_lt_pow (Nat.succ_ne_zero _) (by decide)

/-- The children of a node come to less work than the node (R178). -/
theorem workOf_children_lt {c : RunCfg} {fr : Frame} {k : NodeClass} (hM : 1 ≤ c.M)
    (hk : k.isSplit = true → classifyNonFlat c fr = k) : workOf c.M (k.children fr) < fr.work c.M := by
  have hchild : ∀ n ∈ (k.children fr).map (Frame.work c.M), n ≤ 5 ^ fr.halvingsLeft c.M := by
    rw [List.forall_mem_map]
    intro f hf
    have hsplit := NodeClass.isSplit_of_mem_children hf
    have hrule : SplitRule c.M fr k := (splits_of_classifyNonFlat (hk hsplit) hsplit).2
    exact Nat.pow_le_pow_right (by decide) (hrule.halvingsLeft_lt hM hf)
  have hlength := k.children_length_le fr
  calc workOf c.M (k.children fr)
    _ ≤ (k.children fr).length * 5 ^ fr.halvingsLeft c.M := by
      simpa [workOf] using List.sum_le_card_nsmul _ _ hchild
    _ ≤ 4 * 5 ^ fr.halvingsLeft c.M := Nat.mul_le_mul_right _ hlength
    _ < fr.work c.M := by
      rw [Frame.work, Nat.pow_succ, Nat.mul_comm]
      exact Nat.mul_lt_mul_of_pos_left (by decide) (by positivity)

/-- The work left in the pass: the frames to be visited, and one more while the cache is asked. -/
def State.passWork (s : State) : Nat := workOf s.cfg.M s.stack + (if s.phase = .cacheWait then 1 else 0)

/-- The passes left, the work left in the pass, and the tokens left of the node; what comes first counts most. -/
def State.workLeft (s : State) : ℕ ×ₗ ℕ ×ₗ ℕ := toLex (s.passes.length, toLex (s.passWork, s.queue.length))

theorem State.workLeft_lt_iff {s t : State} : t.workLeft < s.workLeft ↔ t.passes.length < s.passes.length ∨
    t.passes.length = s.passes.length ∧
      (t.passWork < s.passWork ∨ t.passWork = s.passWork ∧ t.queue.length < s.queue.length) := by
  simp only [State.workLeft, Prod.Lex.toLex_lt_toLex]

/-- A move of a running block ends the run with an outcome, or leaves the block running with less work. -/
theorem Move.ends_or_workLeft_lt {s t : State} (hmove : Move s t) (h : s.Inv) (hfree : s.Free) (hphase : s.phase ≠ .idle) :
    (t.phase = .idle ∧ (t.regs.done = true ∨ t.regs.fault = true)) ∨
      (t.phase ≠ .idle ∧ t.Free ∧ t.workLeft < s.workLeft) := by
  have hbusy := h.busy_of_phase hphase
  cases hmove with
  | fault => exact .inl ⟨rfl, .inr rfl⟩
  | @transfer tok q hqueue =>
    refine .inr ⟨hphase, ?_, State.workLeft_lt_iff.2 (.inr ⟨rfl, .inr ⟨rfl, ?_⟩⟩)⟩
    · rw [State.transfer_eq_send]
      exact { hfree with }
    · simp [hqueue]
  | passEnd =>
    obtain ⟨p, ps, hpasses⟩ := List.exists_cons_of_ne_nil (h.passes hbusy).1
    rcases ps with _ | ⟨q, ps⟩
    · rw [passEnd_of_last hpasses]
      exact .inl ⟨rfl, .inl rfl⟩
    · rw [passEnd_of_next hpasses]
      exact .inr ⟨hphase, { hfree with }, State.workLeft_lt_iff.2 (.inl (by simp [hpasses]))⟩
  | @node p fr rest k ts hstack hk =>
    obtain ⟨-, hM, -⟩ := configCheck_eq_none_iff.1 (h.cfgChecked hbusy)
    have hless : workOf s.cfg.M (k.children fr ++ s.stack.tail) < workOf s.cfg.M s.stack := by
      simpa [hstack] using workOf_children_lt (Nat.pos_of_ne_zero hM) hk
    exact .inr ⟨hphase, { hfree with }, State.workLeft_lt_iff.2 (.inr ⟨rfl, .inl (Nat.add_lt_add_right hless _)⟩)⟩
  | @request p fr rest hstack =>
    have hless : (s.requested p fr).passWork < s.passWork := by
      have hone := fr.one_lt_work s.cfg.M
      simp only [State.passWork, State.requested, State.popNode_stack, State.popNode_cfg, hstack, List.tail_cons, workOf_cons,
        if_true]
      omega
    exact .inr ⟨by simp [State.requested], { hfree with }, State.workLeft_lt_iff.2 (.inr ⟨rfl, .inl hless⟩)⟩
  | @resume pd ts hwait =>
    have hless : ((s.answered pd).resume ts).passWork < s.passWork := by
      simp [State.passWork, State.resume, State.answered, hwait]
    exact .inr ⟨by simp [State.resume], { hfree with }, State.workLeft_lt_iff.2 (.inr ⟨rfl, .inl hless⟩)⟩

/-- A running block that nothing holds up gets to the end of its run. -/
theorem State.Inv.run_ends {s : State} (h : s.Inv) (hfree : s.Free) (hphase : s.phase ≠ .idle) :
    ∃ t, Steps s t ∧ t.phase = .idle ∧ (t.regs.done = true ∨ t.regs.fault = true) := by
  induction hwork : s.workLeft using WellFoundedLT.induction generalizing s with
  | ind w ih =>
    obtain ⟨t, hown⟩ := h.ownStep_progress
    have hstep : step s = .next t := (step_of_schedule_nil hfree.schedule).trans hown
    obtain ⟨hidle, houtcome⟩ | ⟨hrunning, htfree, hless⟩ :=
      (hfree.move_of_ownStep hphase hown).ends_or_workLeft_lt h hfree hphase
    · exact ⟨t, .of_step hstep, hidle, houtcome⟩
    · obtain ⟨u, hsteps, hu⟩ := ih _ (hwork ▸ hless) (h.ownStep hown) htfree hrunning rfl
      exact ⟨u, .head hstep hsteps, hu⟩

/-- Settles O53: an idle block has no run to end, and a running one has work left that every step makes less. -/
theorem everyRunEnds : Obligations.EveryRunEnds := by
  unfold Obligations.EveryRunEnds
  intro s h hfree
  by_cases hphase : s.phase = .idle
  · exact ⟨0, s, rfl, hphase, fun hbusy => by simp [h.phaseBusy.1 hphase] at hbusy⟩
  · obtain ⟨t, hsteps, hidle, houtcome⟩ := h.run_ends hfree hphase
    obtain ⟨n, hrun⟩ := hsteps.exists_run
    exact ⟨n, t, hrun, hidle, fun _ => houtcome⟩

end Sys2Proof.Machine
end

section
/-! PROOF. What a node symbol leaves where its node is ready and of its class (R176, R177, R180, R200 to R206). -/

namespace Sys2Proof.Machine

/-! ### The class of a node -/

theorem isLazy_eq_false_iff {c : RunCfg} {fr : Frame} : isLazy c fr = false ↔ c.lazy ≤ fr.d := by
  rw [isLazy, decide_eq_false_iff_not, Nat.not_lt]

/-- A node that is not lazy and equals its reference is a SKIP (R175, R200). -/
theorem classify_skip {c : RunCfg} {P Q : Image} {fr : Frame} {p : Pass} (href : c.refEn = true) (hlazy : c.lazy ≤ fr.d)
    (hagree : AgreeOn P Q fr (maskOf p)) : classify c P Q fr p = .skip :=
  if_pos ⟨href, isLazy_eq_false_iff.2 hlazy, cmpRef_iff.2 hagree⟩

/-- A node that is not lazy, no SKIP and uniform is a FLAT (R175, R201). -/
theorem classify_flat {c : RunCfg} {P Q : Image} {fr : Frame} {p : Pass} (h : SelectsFlat c P Q fr p) :
    classify c P Q fr p = .flat := by
  obtain ⟨hlazy, hskip, hflat⟩ := h
  rw [classify, if_neg fun ⟨href, _, hcmp⟩ => hskip ⟨href, cmpRef_iff.1 hcmp⟩,
    if_pos ⟨isLazy_eq_false_iff.2 hlazy, cmpFlat_iff.2 hflat⟩]

theorem classifyNonFlat_deep {c : RunCfg} {fr : Frame} (hdepth : fr.d = c.maxdepth) : classifyNonFlat c fr = .deep :=
  if_pos hdepth

/-- Below the ceiling, the split rule gives a frame its class (R175, R176). -/
theorem classifyNonFlat_of_splitRule {c : RunCfg} {fr : Frame} {k : NodeClass} (hdepth : fr.d ≠ c.maxdepth)
    (hrule : SplitRule c.M fr k) : classifyNonFlat c fr = k := by
  rw [classifyNonFlat, if_neg hdepth]
  obtain ⟨rfl, hw, hh⟩ | ⟨rfl, hw, hh⟩ | ⟨rfl, hw, hh⟩ := hrule
  · rw [if_pos ⟨hw, hh⟩]
  · rw [if_neg fun h => h.2.not_ge hh, if_pos hw]
  · rw [if_neg fun h => h.1.not_ge hw, if_neg hw.not_gt, if_pos hh]

/-- Below the ceiling, a frame neither of whose extents is above `M` is a LEAF where there is no cache (R175, R206). -/
theorem classifyNonFlat_leaf {c : RunCfg} {fr : Frame} (hdepth : fr.d ≠ c.maxdepth) (hw : fr.w ≤ c.M) (hh : fr.h ≤ c.M)
    (hcache : c.cacheEn = false) : classifyNonFlat c fr = .leaf := by
  rw [classifyNonFlat, if_neg hdepth, if_neg fun h => h.1.not_ge hw, if_neg hw.not_gt, if_neg hh.not_gt, hcache]
  exact if_neg Bool.false_ne_true

/-! ### The step of a node -/

/-- A symbol completes on a ready node of its class: the class's tokens are the queue, its children stand on the frames below,
and all else is as it was (R180). -/
theorem NodeReady.exec_of_class {s : State} {p : Pass} {fr : Frame} {rest : List Frame} {k : NodeClass} {i : Instr}
    (h : NodeReady s p fr rest) (hsymbol : k.symbol = some i) (hclass : s.classOf p fr = k) :
    ∃ t, exec i s = .next t ∧ NodeFrame s t ∧ t.queue = k.tokens s.cfg s.P p fr ∧ t.stack = k.children fr ++ rest := by
  have hexec := nodeStep_ok
    (fun p fr t => (t.enqueue (k.tokens s.cfg s.P p fr)).pushChildren (k.children fr)) h.enabledNode h.firstError hclass
  have hrest : s.stack.tail = rest := by rw [h.stack, List.tail_cons]
  exact ⟨_, (exec_symbol hsymbol s).trans hexec, ⟨rfl, fun _ => rfl⟩, rfl, congrArg (k.children fr ++ ·) hrest⟩

/-- Settles O23: a node equal to its reference is a SKIP, whose class has no children. -/
theorem skipReusesTheReference : Obligations.SkipReusesTheReference := by
  unfold Obligations.SkipReusesTheReference
  intro s p fr rest hready href hlazy hagree
  obtain ⟨t, hexec, hframe, hqueue, hstack⟩ :=
    hready.exec_of_class (k := .skip) rfl (classify_skip href hlazy hagree)
  exact ⟨t, hexec, hqueue, hstack, hframe⟩

/-- Settles O24: a uniform node that is no SKIP is a FLAT, whose class has no children. -/
theorem flatEmitsTheTopLeftPixel : Obligations.FlatEmitsTheTopLeftPixel := by
  unfold Obligations.FlatEmitsTheTopLeftPixel
  intro s p fr rest hready hflat
  obtain ⟨t, hexec, hframe, hqueue, hstack⟩ := hready.exec_of_class (k := .flat) rfl (classify_flat hflat)
  exact ⟨t, hexec, hstack, hframe, hqueue.trans (List.append_assoc ..)⟩

/-- Settles O25: which extents exceed `M` is what the split rule asks, and a split's tokens and children are its class's. -/
theorem splitsPushTheirChildren : Obligations.SplitsPushTheirChildren := by
  unfold Obligations.SplitsPushTheirChildren
  intro s p x1 y1 x2 y2 d rest hready hnonflat hdepth
  have hclass {k : NodeClass} (hrule : SplitRule s.cfg.M ⟨x1, y1, x2, y2, d⟩ k) : s.classOf p ⟨x1, y1, x2, y2, d⟩ = k :=
    (classify_of_selectsNonFlat hnonflat).trans (classifyNonFlat_of_splitRule hdepth hrule)
  exact ⟨fun hw hh => hready.exec_of_class (k := .quad) rfl (hclass (.inl ⟨rfl, hw, hh⟩)),
    fun hw hh => hready.exec_of_class (k := .splitx) rfl (hclass (.inr (.inl ⟨rfl, hw, hh⟩))),
    fun hw hh => hready.exec_of_class (k := .splity) rfl (hclass (.inr (.inr ⟨rfl, hw, hh⟩)))⟩

/-- Settles O26: DEEP and LEAF queue the same tokens, and the depth alone chooses between them. -/
theorem rawLeavesEmitTheRegion : Obligations.RawLeavesEmitTheRegion := by
  unfold Obligations.RawLeavesEmitTheRegion
  intro s p fr rest hready hnonflat
  have hclass : s.classOf p fr = classifyNonFlat s.cfg fr := classify_of_selectsNonFlat hnonflat
  refine ⟨fun hdepth => ?_, fun hdepth hw hh hcache => ?_⟩
  · obtain ⟨t, hexec, hframe, hqueue, hstack⟩ :=
      hready.exec_of_class (k := .deep) rfl (hclass.trans (classifyNonFlat_deep hdepth))
    exact ⟨t, hexec, hstack, hframe, hqueue.trans (List.append_assoc ..)⟩
  · obtain ⟨t, hexec, hframe, hqueue, hstack⟩ :=
      hready.exec_of_class (k := .leaf) rfl (hclass.trans (classifyNonFlat_leaf hdepth hw hh hcache))
    exact ⟨t, hexec, hstack, hframe, hqueue.trans (List.append_assoc ..)⟩

end Sys2Proof.Machine
end

section
/-! PROOF. The answers of the attached cache and what HIT and MISS make of them (R207 to R209, R232, R234, R236, R292). -/

namespace Sys2Proof.Machine

/-! ### The contract of the attached cache -/

/-- The slot a hit names holds the key (R232). -/
theorem cacheHolds_of_cacheSlotOf {c : CacheState} {k : Key} {i : Nat} (h : cacheSlotOf c k = some i) :
    cacheHolds c i = some k := by
  obtain ⟨e, hfind, rfl⟩ := Option.map_eq_some_iff.1 h
  simpa using List.find?_some hfind

/-- Where no slot is named, none holds the key (R234). -/
theorem cacheHolds_ne_of_cacheSlotOf_eq_none {c : CacheState} {k : Key} (h : cacheSlotOf c k = none) (i : Nat) :
    cacheHolds c i ≠ some k := by
  intro hholds
  have hmem : (i, k) ∈ c.slots := by
    obtain ⟨before, after, hslots, -⟩ := List.lookup_eq_some_iff.1 hholds
    simp [hslots]
  have hfind := List.find?_eq_none.1 (Option.map_eq_none_iff.1 h) (i, k) hmem
  exact hfind (decide_eq_true hholds)

/-- The attached cache keeps the contract, whatever its free functions are (R232, R234). -/
theorem platformCache_contract : platformCache.Contract where
  hit c k c' i h := by
    change cacheLookup c k = (c', .hit i) at h
    obtain ⟨-, hlookup⟩ | ⟨-, j, hslot, hlookup⟩ | ⟨-, -, hlookup⟩ := cacheLookup_cases c k
    all_goals rw [hlookup] at h; cases h
    exact ⟨cacheHolds_of_cacheSlotOf hslot, rfl⟩
  inserted c k c' h := by
    change cacheLookup c k = (c', .inserted) at h
    obtain ⟨-, hlookup⟩ | ⟨-, j, -, hlookup⟩ | ⟨-, hslot, hlookup⟩ := cacheLookup_cases c k
    all_goals rw [hlookup] at h; cases h
    exact ⟨cacheHolds_ne_of_cacheSlotOf_eq_none hslot, rfl⟩

/-! ### The response step -/

/-- An answer the block cannot use faults in HIT and in MISS (R209, R236). -/
theorem exec_response_of_bad_answer {i : Instr} {s : State} {pd : Pending} (hi : i = .hit ∨ i = .miss)
    (hphase : s.phase = .cacheWait) (hpending : s.pending = some pd)
    (hbad : (cacheLookup s.cache pd.key).2 = .error ∨
      ∃ n, (cacheLookup s.cache pd.key).2 = .hit n ∧ 2 ^ s.cfg.indexbits ≤ n) :
    exec i s = .next ((s.answered pd).raiseFault .cache 0) := by
  obtain rfl | rfl := hi
  case inl =>
    change execHit s = _
    rw [execHit, cacheResponse_eq _ hphase hpending]
    obtain hanswer | ⟨n, hanswer, hn⟩ := hbad <;> rw [hanswer]
    · rfl
    · exact if_neg hn.not_gt
  case inr =>
    change execMiss s = _
    rw [execMiss, cacheResponse_eq _ hphase hpending]
    obtain hanswer | ⟨n, hanswer, hn⟩ := hbad <;> rw [hanswer]
    · rfl
    · exact if_neg hn.not_gt

theorem faultEntered_badAnswer (s : State) (pd : Pending) : FaultEntered s ((s.answered pd).raiseFault .cache 0) 9 0 :=
  ⟨Regs.enterFault_zero s.regs .cache, rfl, rfl, rfl, rfl, rfl, rfl, fun _ => rfl, rfl, rfl, rfl, rfl, rfl, rfl⟩

/-- Settles O28: the contract says what a hit means, and the response step what HIT makes of it. -/
theorem hitEmitsTheIndex : Obligations.HitEmitsTheIndex := by
  unfold Obligations.HitEmitsTheIndex
  intro s pd c i hphase hpending hlookup hi
  refine ⟨?_, platformCache_contract.hit _ _ _ _ hlookup⟩
  change cacheLookup s.cache pd.key = _ at hlookup
  rw [exec_hit_of_lookup hphase hpending (by rw [hlookup]) hi, State.answered, hlookup]
  rfl

/-- Settles O29: the contract says what an insertion means, and the response step what MISS makes of it. -/
theorem missEmitsThePayload : Obligations.MissEmitsThePayload := by
  unfold Obligations.MissEmitsThePayload
  intro s pd c hphase hpending hlookup
  refine ⟨?_, platformCache_contract.inserted _ _ _ hlookup⟩
  change cacheLookup s.cache pd.key = _ at hlookup
  rw [exec_miss_of_lookup hphase hpending (by rw [hlookup]), State.answered, hlookup, List.append_assoc]
  rfl

/-- Settles O30: HIT and MISS fault alike, from the state the lookup left. -/
theorem badCacheAnswerFaults : Obligations.BadCacheAnswerFaults := by
  unfold Obligations.BadCacheAnswerFaults
  intro s pd c a i hi hphase hpending hlookup hbad
  change cacheLookup s.cache pd.key = _ at hlookup
  refine ⟨_, exec_response_of_bad_answer hi hphase hpending ?_, faultEntered_badAnswer s pd, congrArg Prod.fst hlookup⟩
  rwa [hlookup]

end Sys2Proof.Machine
end

section
/-! PROOF. The attached cache as an instance of the abstract model (R231 to R234). -/

namespace Sys2Proof.Machine

/-- Settles O49: a hit names a slot found to hold the key, and a key is inserted only where no slot was found to hold it. -/
theorem attachedCacheMeetsItsContract : Obligations.AttachedCacheMeetsItsContract := by
  unfold Obligations.AttachedCacheMeetsItsContract
  exact platformCache_contract

end Sys2Proof.Machine
end

section
/-! PROOF. The symbol of a node and what decoding does with it (R110, R254), one lemma for both. -/

namespace Sys2Proof.Machine

section
variable {C : Type} (M : CacheModel C) (d : DecCfg) (ref : Option Image) (p : Pass)

/-- What decoding a node does once its symbol has been read (R254); `n` bounds the depth of the children's decodes. -/
def symbolEffect (n : Nat) (fr : Frame) : Instr → DecState C → DecResult C
  | .skip, st => .ok { st with out := st.out.writeRegion fr p (refByte ref) }
  | .flat, st =>
    st.readBytes (nb p) fun bs st1 => .ok { st1 with out := st1.out.writeRegion fr p fun _ _ c => unpack d.bgra bs p c }
  | .deep, st | .leaf, st => readRawInto d fr p st
  | .quad, st => decodeList (decodeNode M d ref p n) (quadChildren fr) st
  | .splitx, st => decodeList (decodeNode M d ref p n) (splitxChildren fr) st
  | .splity, st => decodeList (decodeNode M d ref p n) (splityChildren fr) st
  | .miss, st => decodeMiss M d fr p st
  | .hit, st => decodeHit M d fr p st
  | .regwr _ _, st | .regrd _ _, st | .start _ _, st | .ack _, st => .fail st.cache

variable {n : Nat} {fr : Frame} {st : DecState C}

/-- A node whose symbol is read has that symbol's effect on what follows the symbol's command bits. -/
theorem decodeNode_of_decodeSymbol {i : Instr} {rest : List Bool} (h : decodeSymbol (d.ctx fr) st.cmd = .ok (i, rest)) :
    decodeNode M d ref p (n + 1) fr st = symbolEffect M d ref p n fr i { st with cmd := rest } := by
  cases i <;> simp [decodeNode, symbolEffect, h]

theorem decodeNode_of_decodeSymbol_error {e : DecodeError} (h : decodeSymbol (d.ctx fr) st.cmd = .error e) :
    decodeNode M d ref p (n + 1) fr st = .fail st.cache := by
  simp [decodeNode, h]

end

theorem DecResult.andThen_eq_ok {C : Type} {r : DecResult C} {f : DecState C → DecResult C} {st : DecState C} :
    r.andThen f = .ok st ↔ ∃ st1, r = .ok st1 ∧ f st1 = .ok st := by
  cases r <;> simp [DecResult.andThen]

end Sys2Proof.Machine
end

section
/-! PROOF. The decoder's reads move forward only, and so do the decodes built from them (R251, R255). -/

namespace Sys2Proof.Machine

section
variable {C : Type}

/-- The decode has moved from `st` to `st'`: what is left to read of each sequence is an end of what was. -/
structure DecState.MovesTo (st st' : DecState C) : Prop where
  cmd : st'.cmd <:+ st.cmd
  idx : st'.idx <:+ st.idx
  pix : st'.pix <:+ st.pix

variable {st st' st'' : DecState C}

theorem DecState.MovesTo.trans (h : st.MovesTo st') (h' : st'.MovesTo st'') : st.MovesTo st'' :=
  ⟨h'.cmd.trans h.cmd, h'.idx.trans h.idx, h'.pix.trans h.pix⟩

theorem DecState.MovesTo.refl (st : DecState C) : st.MovesTo st :=
  ⟨List.suffix_rfl, List.suffix_rfl, List.suffix_rfl⟩

/-- What changes the output and the cache alone reads nothing. -/
theorem DecState.MovesTo.of_output (st : DecState C) (out : Canvas) (c : C) :
    st.MovesTo { st with out := out, cache := c } :=
  ⟨List.suffix_rfl, List.suffix_rfl, List.suffix_rfl⟩

/-- A result that, where it is `ok`, has moved forward from `st`. -/
def DecResult.MovesFrom (r : DecResult C) (st : DecState C) : Prop := ∀ st', r = .ok st' → st.MovesTo st'

theorem DecResult.movesFrom_ok (h : st.MovesTo st') : (DecResult.ok st').MovesFrom st := by
  rintro _ ⟨⟩
  exact h

theorem DecResult.movesFrom_fail (c : C) : (DecResult.fail c).MovesFrom st := by
  rintro _ ⟨⟩

theorem DecResult.movesFrom_undef (c : C) : (DecResult.undef c).MovesFrom st := by
  rintro _ ⟨⟩

theorem DecResult.MovesFrom.of_movesTo {r : DecResult C} (h : r.MovesFrom st') (hst : st.MovesTo st') : r.MovesFrom st :=
  fun _ hr => hst.trans (h _ hr)

theorem DecResult.MovesFrom.andThen {r : DecResult C} {f : DecState C → DecResult C} (hr : r.MovesFrom st)
    (hf : ∀ st', (f st').MovesFrom st') : (r.andThen f).MovesFrom st := by
  intro st' h
  obtain ⟨st1, hst1, hst'⟩ := DecResult.andThen_eq_ok.1 h
  exact (hr _ hst1).trans (hf st1 _ hst')

/-- `ReadBytes` drops the bytes it takes (R251). -/
theorem readBytes_movesFrom {f : List Byte → DecState C → DecResult C} (n : Nat)
    (hf : ∀ bs st', (f bs st').MovesFrom st') : (st.readBytes n f).MovesFrom st := by
  obtain ⟨-, hread⟩ | ⟨-, hread⟩ := readBytes_cases st n f <;> rw [hread]
  · exact (hf _ _).of_movesTo ⟨List.suffix_rfl, List.suffix_rfl, List.drop_suffix ..⟩
  · exact DecResult.movesFrom_fail _

/-- `ReadIdx` drops tokens, misread or not (R251, R237). -/
theorem readIdx_movesFrom {f : Nat → DecState C → DecResult C} (width : Nat)
    (hf : ∀ i st', (f i st').MovesFrom st') : (st.readIdx width f).MovesFrom st := by
  obtain hread | ⟨i, n, -, hread⟩ := readIdx_cases st width f <;> rw [hread]
  · exact DecResult.movesFrom_fail _
  · exact (hf _ _).of_movesTo ⟨List.suffix_rfl, List.drop_suffix .., List.suffix_rfl⟩

theorem decodeList_movesFrom {f : Frame → DecState C → DecResult C} (hf : ∀ fr st, (f fr st).MovesFrom st)
    (frs : List Frame) (st : DecState C) : (decodeList f frs st).MovesFrom st := by
  induction frs generalizing st with
  | nil => exact DecResult.movesFrom_ok (.refl st)
  | cons fr frs ih => exact (hf fr st).andThen ih

variable (M : CacheModel C) (d : DecCfg) (ref : Option Image) (p : Pass)

theorem decodeHit_movesFrom (fr : Frame) (st : DecState C) : (decodeHit M d fr p st).MovesFrom st := by
  refine readIdx_movesFrom _ fun i st' => ?_
  split
  · exact DecResult.movesFrom_undef _
  · split
    · exact DecResult.movesFrom_ok (.of_output ..)
    · exact DecResult.movesFrom_undef _

/-- What a symbol does moves forward where its children's decodes do (R254). -/
theorem symbolEffect_movesFrom {n : Nat} (hn : ∀ fr (st : DecState C), (decodeNode M d ref p n fr st).MovesFrom st)
    (fr : Frame) (i : Instr) (st : DecState C) : (symbolEffect M d ref p n fr i st).MovesFrom st := by
  cases i with
  | skip => exact DecResult.movesFrom_ok (.of_output ..)
  | flat | deep | leaf | miss =>
    simp only [symbolEffect, readRawInto, decodeMiss]
    exact readBytes_movesFrom _ fun bs st' => DecResult.movesFrom_ok (.of_output ..)
  | hit => exact decodeHit_movesFrom M d p fr st
  | quad | splitx | splity => exact decodeList_movesFrom hn _ st
  | regwr | regrd | start | ack => exact DecResult.movesFrom_fail _

theorem decodeNode_movesFrom (n : Nat) (fr : Frame) (st : DecState C) : (decodeNode M d ref p n fr st).MovesFrom st := by
  induction n generalizing fr st with
  | zero => exact DecResult.movesFrom_fail _
  | succ n ih =>
    obtain ⟨-, herr, -⟩ | ⟨i, cmd, rest, hbits, -, -, hok⟩ := decodeSymbol_cases (d.ctx fr) st.cmd
    · rw [decodeNode_of_decodeSymbol_error M d ref p herr]
      exact DecResult.movesFrom_fail _
    · rw [decodeNode_of_decodeSymbol M d ref p hok]
      exact (symbolEffect_movesFrom M d ref p ih fr i _).of_movesTo ⟨⟨cmd, hbits.symm⟩, List.suffix_rfl, List.suffix_rfl⟩

theorem decodePasses_movesFrom (ps : List Pass) (st : DecState C) : (decodePasses M d ref ps st).MovesFrom st := by
  induction ps generalizing st with
  | nil => exact DecResult.movesFrom_ok (.refl st)
  | cons p ps ih => exact (decodeNode_movesFrom M d ref p _ _ st).andThen ih

end

/-- Settles O59: each read drops what it takes from the front of its sequence, and a decode is a row of reads. -/
theorem decoderReadsMoveForwardOnly : Obligations.DecoderReadsMoveForwardOnly := by
  unfold Obligations.DecoderReadsMoveForwardOnly
  refine fun C M => ⟨fun st n f => ⟨fun hn => if_pos hn, fun hn => if_neg hn.not_ge⟩,
    fun st width f => ⟨fun i rest hidx hi => readIdx_of_width f hidx hi, readIdx_nil width f, readIdx_cases st width f⟩,
    fun d q ref c0 st hdecode => ?_⟩
  obtain ⟨hcmd, hidx, hpix⟩ := decodePasses_movesFrom M d ref _ _ st hdecode
  exact ⟨hcmd, hidx, hpix⟩

end Sys2Proof.Machine
end

section
/-! PROOF. What a run of a uniform image gives (R261): each pass is a single node, its root. -/

namespace Sys2Proof.Machine

/-- Command bits as tokens do not reach the other two ports (R100). -/
theorem streamsOf_cmdTokens (w : Nat) (bits : List Bool) (ts : List Token) :
    streamsOf w (bits.map .cmd ++ ts) = { streamsOf w ts with cmd := bits ++ (streamsOf w ts).cmd } := by
  induction bits with
  | nil => rfl
  | cons b bits ih => simp [ih]

/-- Payload bytes as tokens do not reach the other two ports (R100). -/
theorem streamsOf_pixTokens (w : Nat) (bs : List Byte) : streamsOf w (pixTokens bs) = ⟨[], [], bs⟩ := by
  induction bs with
  | nil => rfl
  | cons b bs ih => simp_all [pixTokens]

theorem refTokens_eq (c : RunCfg) : refTokens c = (refBits c.refEn).map .cmd := by
  rcases h : c.refEn with _ | _ <;> simp [refTokens, refBits, h]

/-- The streams of a FLAT (R201). -/
theorem streamsOf_flatTokens (w : Nat) (c : RunCfg) (P : Image) (fr : Frame) (p : Pass) :
    streamsOf w (flatTokens c P fr p) = ⟨refBits c.refEn ++ [true], [], pixBytes c.bgra (P fr.x1 fr.y1) p⟩ := by
  simp [flatTokens, refTokens_eq, streamsOf_cmdTokens, streamsOf_pixTokens]

section
variable {C : Type} {M : CacheModel C} {cfg : RunCfg} {P Q : Image}

/-- Where every pass classifies its root as the same leaf class, a pass gives that leaf's tokens alone, and asks no cache. -/
theorem encodePasses_of_root_leaf {k : NodeClass} (hk : k = .skip ∨ k = .flat) (c : C) {ps : List Pass}
    (hclass : ∀ p ∈ ps, classify cfg P Q (rootFrame cfg.W cfg.H) p = k) :
    encodePasses M cfg P Q ps c = some (ps.flatMap fun p => k.tokens cfg P p (rootFrame cfg.W cfg.H), c) := by
  induction ps with
  | nil => rfl
  | cons p ps ih =>
    obtain ⟨hp, hps⟩ := List.forall_mem_cons.1 hclass
    refine encodePasses_cons_eq_some.2 ⟨_, c, _, ?_, ih hps, rfl⟩
    obtain rfl | rfl := hk <;> simp [encodeNode, hp, NodeClass.tokens]

end

/-- Every channel of a mask is one of `x`, `y`, `z`, which are the mask of FULL (R150). -/
theorem maskOf_subset (p : Pass) : maskOf p ⊆ maskOf .full := by cases p <;> decide

/-- Settles O58: under LAZYNESS 0 the root is compared first, so each pass is one SKIP or one FLAT. -/
theorem uniformImageCompacts : Obligations.UniformImageCompacts := by
  unfold Obligations.UniformImageCompacts
  rintro C M b cfg P Q c0 - hlazy huniform
  have hdepth : cfg.lazy ≤ (rootFrame cfg.W cfg.H).d := hlazy.le
  have hflat : ∀ p, ¬(cfg.refEn = true ∧ AgreeOn P Q (rootFrame cfg.W cfg.H) (maskOf p)) →
      classify cfg P Q (rootFrame cfg.W cfg.H) p = .flat := fun p hskip =>
    classify_flat ⟨hdepth, hskip, fun x y hx1 hx2 hy1 hy2 c hc => huniform x y hx1 hx2 hy1 hy2 c (maskOf_subset p hc)⟩
  have hfull : cfg.colordiff ≠ 2 → passList cfg.colordiff = [.full] := fun h => if_neg h
  refine ⟨fun hcd href => ?_, fun hcd href hdiffer => ?_, fun hcd href hagree => ?_, fun hcd href => ?_⟩
  · refine ⟨_, encodePasses_of_root_leaf (.inr rfl) c0 fun p _ => hflat p (by simp [href]), ?_⟩
    simp [hfull hcd, NodeClass.tokens, streamsOf_flatTokens, refBits, href, rootFrame]
  · refine ⟨_, encodePasses_of_root_leaf (.inr rfl) c0 fun p hp => hflat p ?_, ?_⟩
    · obtain rfl : p = .full := by simpa [hfull hcd] using hp
      exact fun h => hdiffer h.2
    · simp [hfull hcd, NodeClass.tokens, streamsOf_flatTokens, refBits, href, rootFrame]
  · refine ⟨_, encodePasses_of_root_leaf (.inl rfl) c0 fun p hp => classify_skip href hdepth ?_, ?_⟩
    · obtain rfl : p = .full := by simpa [hfull hcd] using hp
      exact hagree
    · simp [hfull hcd, NodeClass.tokens, skipTokens]
  · refine ⟨_, encodePasses_of_root_leaf (.inr rfl) c0 fun p _ => hflat p (by simp [href]), ?_⟩
    simp [hcd, passList, NodeClass.tokens, streamsOf_append, streamsOf_flatTokens, refBits, href, rootFrame]

end Sys2Proof.Machine
end

section
/-! PROOF. Payload bytes written into the output are the image's own (R252, R254), and painting a region is painting the parts
that a split makes of it (R177). -/

namespace Sys2Proof.Machine

/-- `unpack` is the inverse of `pixBytes` on the channels of the mask (R252). -/
theorem unpack_pixBytes (bgra : Bool) (q : Pixel) {p : Pass} {c : Channel} (hc : c ∈ maskOf p) :
    unpack bgra (pixBytes bgra q p) p c = some (q.get c) := by
  rw [unpack, pixBytes, ← List.map_prod_left_eq_zip]
  exact List.lookup_graph q.get ((mem_payloadOrder bgra p c).2 hc)

theorem Frame.contains_eq (fr : Frame) (x y : Nat) :
    fr.contains x y = decide (fr.x1 ≤ x ∧ x < fr.x2 ∧ fr.y1 ≤ y ∧ y < fr.y2) := by
  simp [Frame.contains, Bool.and_assoc]

theorem Frame.contains_iff {fr : Frame} {x y : Nat} :
    fr.contains x y = true ↔ (fr.x1 ≤ x ∧ x < fr.x2) ∧ fr.y1 ≤ y ∧ y < fr.y2 := by
  simp [Frame.contains]

/-- The output with the image's bytes written, for each region and pass of a list, at the region's pixels on the pass's mask. -/
def Canvas.paint (out : Canvas) (P : Image) (rs : List (Frame × Pass)) : Canvas := fun x y c =>
  if rs.any fun r => r.1.contains x y && (maskOf r.2).contains c then some ((P x y).get c) else out x y c

section
variable (out : Canvas) (P : Image) (rs : List (Frame × Pass)) {fr : Frame} {p : Pass}

/-- Painting twice is painting both lists at once. -/
theorem Canvas.paint_paint (rs' : List (Frame × Pass)) : (out.paint P rs).paint P rs' = out.paint P (rs ++ rs') := by
  funext x y c
  rw [Canvas.paint, Canvas.paint, Canvas.paint, List.any_append, Bool.or_comm]
  simp only [Bool.or_eq_true, ite_or]

/-- A byte in one of the regions, on its pass's mask, is the image's. -/
theorem Canvas.paint_of_mem {x y : Nat} {c : Channel} (hr : (fr, p) ∈ rs) (hxy : fr.contains x y = true)
    (hc : c ∈ maskOf p) : out.paint P rs x y c = some ((P x y).get c) :=
  if_pos (List.any_eq_true.2 ⟨_, hr, by simp [hxy, hc]⟩)

/-- Values that are the image's at the region's pixels on the mask paint the region (R252). -/
theorem Canvas.writeRegion_eq_paint {vals : Nat → Nat → Channel → Option Byte}
    (h : ∀ x y c, fr.contains x y = true → c ∈ maskOf p → vals x y c = some ((P x y).get c)) :
    out.writeRegion fr p vals = out.paint P [(fr, p)] := by
  funext x y c
  simp only [Canvas.writeRegion, Canvas.paint, List.any_cons, List.any_nil, Bool.or_false]
  split
  · next hin =>
    obtain ⟨hxy, hc⟩ := Bool.and_eq_true_iff.1 hin
    exact h x y c hxy (List.contains_iff_mem.1 hc)
  · rfl

/-- SKIP's bytes: a reference that agrees with the image on the region (R200, R254). -/
theorem Canvas.writeRegion_ref {Q : Image} (hagree : AgreeOn P Q fr (maskOf p)) :
    out.writeRegion fr p (refByte (some Q)) = out.paint P [(fr, p)] := by
  refine out.writeRegion_eq_paint P fun x y c hxy hc => ?_
  obtain ⟨⟨hx1, hx2⟩, hy1, hy2⟩ := Frame.contains_iff.1 hxy
  exact congrArg some (hagree x y hx1 hx2 hy1 hy2 c hc).symm

/-- FLAT's bytes: those of the top-left pixel of a uniform region (R201, R254). -/
theorem Canvas.writeRegion_flat (bgra : Bool) (hflat : AgreeOn P (fun _ _ => P fr.x1 fr.y1) fr (maskOf p)) :
    (out.writeRegion fr p fun _ _ c => unpack bgra (pixBytes bgra (P fr.x1 fr.y1) p) p c) = out.paint P [(fr, p)] := by
  refine out.writeRegion_eq_paint P fun x y c hxy hc => ?_
  obtain ⟨⟨hx1, hx2⟩, hy1, hy2⟩ := Frame.contains_iff.1 hxy
  exact (unpack_pixBytes bgra _ hc).trans (congrArg some (hflat x y hx1 hx2 hy1 hy2 c hc).symm)

/-- A raw payload's bytes: each pixel's group stands at its place in the row-major order (R156, R254). -/
theorem Canvas.writeRaw_raw (bgra : Bool) : out.writeRaw bgra fr (raw bgra P fr p) p = out.paint P [(fr, p)] := by
  refine out.writeRegion_eq_paint P fun x y c hxy hc => ?_
  obtain ⟨⟨hx1, hx2⟩, hy1, hy2⟩ := Frame.contains_iff.1 hxy
  rw [(rawPayloadIsRowMajor bgra P fr p).2 x y hx1 hx2 hy1 hy2]
  exact unpack_pixBytes bgra _ hc

/-- A pixel lies in some part of a partition exactly when it lies in the whole. -/
theorem Partition.any_contains {cs : List Frame} (h : Partition fr cs) (x y : Nat) :
    (cs.any fun f => f.contains x y) = fr.contains x y := by
  have hcount : cs.countP (fun f => f.contains x y) = if fr.contains x y then 1 else 0 := by
    simpa only [List.countP_eq_length_filter, Frame.contains_eq, decide_eq_true_eq] using h.2 x y
  rw [Bool.eq_iff_iff, List.any_eq_true, ← List.countP_pos_iff, hcount]
  split <;> simp_all

theorem Canvas.paint_partition {cs : List Frame} (h : Partition fr cs) :
    out.paint P (cs.map fun f => (f, p)) = out.paint P [(fr, p)] := by
  funext x y c
  simp only [Canvas.paint, List.any_map, Function.comp_def, List.any_cons, List.any_nil, Bool.or_false, ← h.any_contains x y]
  cases (maskOf p).contains c <;> simp

end

/-- The children of a node that splits are a partition of it (R176, R177, R179). -/
theorem partition_children {c : RunCfg} {fr : Frame} {k : NodeClass} (hM : 1 ≤ c.M) (hx : fr.x1 < fr.x2) (hy : fr.y1 < fr.y2)
    (hrule : SplitRule c.M fr k) : Partition fr (k.children fr) := by
  obtain ⟨rfl, hw, hh⟩ | ⟨rfl, hw, -⟩ | ⟨rfl, -, hh⟩ := hrule
  · exact partition_quad (by omega) (by omega)
  · exact partition_splitx (by omega) hy
  · exact partition_splity (by omega) hx

end Sys2Proof.Machine
end

section
/-! PROOF. A node's class seen from the decoder: its symbol is admitted, and its tokens are that symbol's (R105, R110, R175). -/

namespace Sys2Proof.Machine

section
variable {cfg : RunCfg} {P Q : Image} {p : Pass} {fr : Frame}

theorem classifyNonFlat_ne_skip_flat (c : RunCfg) (fr : Frame) :
    classifyNonFlat c fr ≠ .skip ∧ classifyNonFlat c fr ≠ .flat := by
  unfold classifyNonFlat
  repeat' split
  all_goals simp

/-- A SKIP has a reference, which agrees with the image (R175, R152). -/
theorem of_classify_skip (h : classify cfg P Q fr p = .skip) : cfg.refEn = true ∧ AgreeOn P Q fr (maskOf p) := by
  unfold classify at h
  split at h
  · next hskip => exact ⟨hskip.1, cmpRef_iff.1 hskip.2.2⟩
  · split at h
    · cases h
    · exact absurd h (classifyNonFlat_ne_skip_flat cfg fr).1

/-- A FLAT is uniform under the mask (R175, R153). -/
theorem of_classify_flat (h : classify cfg P Q fr p = .flat) : AgreeOn P (fun _ _ => P fr.x1 fr.y1) fr (maskOf p) := by
  unfold classify at h
  split at h
  · cases h
  · split at h
    · next hflat => exact cmpFlat_iff.1 hflat.2
    · exact absurd h (classifyNonFlat_ne_skip_flat cfg fr).2

theorem toDec_ctx (cfg : RunCfg) (fr : Frame) : cfg.toDec.ctx fr =
    ⟨cfg.refEn, cfg.cacheEn, decide (fr.d = cfg.maxdepth), decide (cfg.M < fr.w), decide (cfg.M < fr.h)⟩ := by
  rw [DecCfg.ctx, RunCfg.toDec, Bool.not_not]

/-- The decoder's context admits the symbol of the frame's class (R105, R110, R176). -/
theorem admits_of_classifyNonFlat {i : Instr} (hi : (classifyNonFlat cfg fr).symbol = some i) :
    (cfg.toDec.ctx fr).admits i = true := by
  rw [toDec_ctx]
  unfold classifyNonFlat at hi
  repeat' split at hi
  all_goals cases hi
  all_goals simp_all [SymCtx.admits]

/-- The decoder's context admits the symbol of the node's class (R105, R110, R175). -/
theorem admits_of_classify {i : Instr} (hi : (classify cfg P Q fr p).symbol = some i) :
    (cfg.toDec.ctx fr).admits i = true := by
  by_cases hskip : classify cfg P Q fr p = .skip
  · obtain rfl : Instr.skip = i := by simpa [hskip, NodeClass.symbol] using hi
    rw [toDec_ctx]
    exact (of_classify_skip hskip).1
  · by_cases hflat : classify cfg P Q fr p = .flat
    · obtain rfl : Instr.flat = i := by simpa [hflat, NodeClass.symbol] using hi
      rfl
    · exact admits_of_classifyNonFlat (classifyNonFlat_of_classify hskip hflat ▸ hi)

theorem admits_hit_miss_of_classify (h : classify cfg P Q fr p = .cached) :
    (cfg.toDec.ctx fr).admits .hit = true ∧ (cfg.toDec.ctx fr).admits .miss = true := by
  obtain ⟨hen, hdepth, hw, hh⟩ := cached_of_classifyNonFlat
    ((classifyNonFlat_of_classify (by simp [h]) (by simp [h])).trans h)
  simp [toDec_ctx, SymCtx.admits, hen, hdepth, hw, hh]

end

end Sys2Proof.Machine
end

section
/-! PROOF. Decoding the streams of a run, node by node, gives back the image (R254, R258, R259, R239, R264). -/

namespace Sys2Proof.Machine

/-! ### Tokens in front of a decoder -/

section
variable {C : Type} (st : DecState C) (w : Nat)

/-- A decoder with the streams of a token sequence before what it had left to read. -/
def DecState.feed (ts : List Token) : DecState C :=
  { st with
    cmd := (streamsOf w ts).cmd ++ st.cmd
    idx := (streamsOf w ts).idx ++ st.idx
    pix := (streamsOf w ts).pix ++ st.pix }

/-- A decoder that has painted regions of an image, and whose cache has moved on. -/
def DecState.painted (P : Image) (rs : List (Frame × Pass)) (c : C) : DecState C :=
  { st with out := st.out.paint P rs, cache := c }

theorem DecState.feed_append (ts us : List Token) : st.feed w (ts ++ us) = (st.feed w us).feed w ts := by
  simp [DecState.feed, streamsOf_append]

theorem DecState.painted_feed (ts : List Token) (P : Image) (rs : List (Frame × Pass)) (c : C) :
    (st.feed w ts).painted P rs c = (st.painted P rs c).feed w ts := rfl

theorem DecState.painted_painted (P : Image) (rs rs' : List (Frame × Pass)) (c c' : C) :
    (st.painted P rs c).painted P rs' c' = st.painted P (rs ++ rs') c' := by
  simp [DecState.painted, Canvas.paint_paint]

variable {st}

/-- `ReadBytes` takes the payload that comes first (R251). -/
theorem readBytes_feed {bs : List Byte} {n : Nat} (hlen : bs.length = n) (f : List Byte → DecState C → DecResult C) :
    (st.feed w (pixTokens bs)).readBytes n f = f bs st := by
  have hfeed : st.feed w (pixTokens bs) = { st with pix := bs ++ st.pix } := by
    simp [DecState.feed, streamsOf_pixTokens]
  subst hlen
  simp [hfeed, DecState.readBytes]

/-- `ReadIdx` takes the index that comes first, when the decoder's width is the encoder's (R251, R237). -/
theorem readIdx_feed {i : Nat} (hi : i < 2 ^ w) (f : Nat → DecState C → DecResult C) :
    (st.feed w [.idx i]).readIdx w f = f i st :=
  readIdx_of_width (rest := st.idx) f rfl hi

/-- A symbol whose command bits come first is read, and has its effect on what follows (R110, R254). -/
theorem decodeNode_feed {M : CacheModel C} {d : DecCfg} {ref : Option Image} {p : Pass} {n : Nat} {fr : Frame} {i : Instr}
    {bits : List Bool} (hadm : (d.ctx fr).admits i = true) (henc : encodeSymbol (d.ctx fr).refEn i = some bits)
    (ts : List Token) :
    decodeNode M d ref p (n + 1) fr (st.feed w (bits.map .cmd ++ ts)) = symbolEffect M d ref p n fr i (st.feed w ts) := by
  have hread : decodeSymbol (d.ctx fr) (st.feed w (bits.map .cmd ++ ts)).cmd = .ok (i, (st.feed w ts).cmd) := by
    simp only [DecState.feed, streamsOf_cmdTokens, List.append_assoc]
    exact decodeSymbol_of_encodeSymbol hadm henc _
  rw [decodeNode_of_decodeSymbol M d ref p hread]
  simp [DecState.feed, streamsOf_cmdTokens]

end

/-! ### One node -/

/-- The payload bytes of a node of a class that does not ask the cache (R200 to R206). -/
def NodeClass.payload (c : RunCfg) (P : Image) (p : Pass) (fr : Frame) : NodeClass → List Byte
  | .flat => pixBytes c.bgra (P fr.x1 fr.y1) p
  | .deep | .leaf => raw c.bgra P fr p
  | .skip | .quad | .splitx | .splity | .cached => []

/-- A node's tokens are its symbol's command bits, then its payload (R105, R200 to R206). -/
theorem NodeClass.tokens_eq {c : RunCfg} {fr : Frame} {k : NodeClass} {i : Instr} (hi : k.symbol = some i)
    (hadm : (c.toDec.ctx fr).admits i = true) (P : Image) (p : Pass) :
    ∃ bits, encodeSymbol (c.toDec.ctx fr).refEn i = some bits ∧
      k.tokens c P p fr = bits.map .cmd ++ pixTokens (k.payload c P p fr) := by
  rw [toDec_ctx] at hadm ⊢
  cases k with
  | skip =>
    obtain rfl := Option.some.inj hi
    exact ⟨[false], if_pos hadm, rfl⟩
  | flat | quad | splitx | splity | deep | leaf =>
    obtain rfl := Option.some.inj hi
    refine ⟨_, rfl, ?_⟩
    simp [NodeClass.tokens, NodeClass.payload, flatTokens, splitTokens, rawTokens, refTokens_eq, pixTokens]
  | cached => cases hi

theorem NodeClass.children_of_not_isSplit {fr : Frame} {k : NodeClass} (h : k.isSplit = false) : k.children fr = [] :=
  List.eq_nil_iff_forall_not_mem.2 fun f hf => by simp [NodeClass.isSplit_of_mem_children hf] at h

/-- The reference a run's decoder is given (R250, R259). -/
def RunCfg.decRef (c : RunCfg) (Q : Image) : Option Image := if c.refEn then some Q else none

section
variable {C : Type} {M : CacheModel C} {cfg : RunCfg} {P Q : Image} {p : Pass} {n : Nat} {fr : Frame} {st : DecState C}

/-- A node that does not ask the cache: behind its command bits its symbol meets its payload, then its children's tokens. -/
theorem decodeNode_of_class {i : Instr} (hi : (classify cfg P Q fr p).symbol = some i) (us : List Token) :
    decodeNode M cfg.toDec (cfg.decRef Q) p (n + 1) fr
        (st.feed cfg.indexbits ((classify cfg P Q fr p).tokens cfg P p fr ++ us)) =
      symbolEffect M cfg.toDec (cfg.decRef Q) p n fr i
        (st.feed cfg.indexbits (pixTokens ((classify cfg P Q fr p).payload cfg P p fr) ++ us)) := by
  have hadm := admits_of_classify hi
  obtain ⟨bits, henc, htokens⟩ := NodeClass.tokens_eq hi hadm P p
  rw [htokens, List.append_assoc, decodeNode_feed _ hadm henc]

/-- A raw payload is read into the region whose pixels it holds (R205, R206, R254). -/
theorem readRawInto_raw :
    readRawInto cfg.toDec fr p (st.feed cfg.indexbits (pixTokens (raw cfg.bgra P fr p))) =
      .ok (st.painted P [(fr, p)] st.cache) := by
  rw [readRawInto, readBytes_feed _ (raw_length ..)]
  exact congrArg (fun out => DecResult.ok { st with out := out }) (st.out.writeRaw_raw P cfg.bgra)

/-- A leaf that does not ask the cache paints its region and leaves the cache alone (R200, R201, R205, R206, R254). -/
theorem symbolEffect_of_leaf {k : NodeClass} {i : Instr} (hclass : classify cfg P Q fr p = k) (hi : k.symbol = some i)
    (hleaf : k.isSplit = false) :
    symbolEffect M cfg.toDec (cfg.decRef Q) p n fr i (st.feed cfg.indexbits (pixTokens (k.payload cfg P p fr))) =
      .ok (st.painted P [(fr, p)] st.cache) := by
  cases k with
  | skip =>
    obtain rfl := Option.some.inj hi
    obtain ⟨href, hagree⟩ := of_classify_skip hclass
    have hdec : cfg.decRef Q = some Q := if_pos href
    rw [hdec]
    exact congrArg (fun out => DecResult.ok { st with out := out }) (st.out.writeRegion_ref P hagree)
  | flat =>
    obtain rfl := Option.some.inj hi
    rw [symbolEffect, NodeClass.payload, readBytes_feed _ (pixBytes_length ..)]
    exact congrArg (fun out => DecResult.ok { st with out := out })
      (st.out.writeRegion_flat P cfg.bgra (of_classify_flat hclass))
  | deep | leaf =>
    obtain rfl := Option.some.inj hi
    exact readRawInto_raw
  | quad | splitx | splity => cases hleaf
  | cached => cases hi

/-- A node that splits has no payload, and its symbol's effect is the decodes of its children (R202 to R204, R254). -/
theorem symbolEffect_of_split {k : NodeClass} {i : Instr} (hi : k.symbol = some i) (hsplit : k.isSplit = true)
    (us : List Token) :
    symbolEffect M cfg.toDec (cfg.decRef Q) p n fr i (st.feed cfg.indexbits (pixTokens (k.payload cfg P p fr) ++ us)) =
      decodeList (decodeNode M cfg.toDec (cfg.decRef Q) p n) (k.children fr) (st.feed cfg.indexbits us) := by
  cases k with
  | quad | splitx | splity =>
    obtain rfl := Option.some.inj hi
    rfl
  | skip | flat | deep | cached | leaf => cases hsplit

/-- A CACHED node paints its region, and the decoder's cache does what the encoder's did (R207, R208, R239). -/
theorem decodeNode_of_encodeCached (hM : M.Contract) (hclass : classify cfg P Q fr p = .cached) {ts : List Token} {c : C}
    (henc : encodeCached cfg (keyOf cfg.bgra P fr p) (M.lookup st.cache (keyOf cfg.bgra P fr p)) = some (ts, c)) :
    decodeNode M cfg.toDec (cfg.decRef Q) p (n + 1) fr (st.feed cfg.indexbits ts) = .ok (st.painted P [(fr, p)] c) := by
  obtain ⟨hhit, hmiss⟩ := admits_hit_miss_of_classify hclass
  rcases hlookup : M.lookup st.cache (keyOf cfg.bgra P fr p) with ⟨c', i | _ | _⟩ <;> rw [hlookup] at henc
  case hit =>
    obtain ⟨hi, rfl, rfl⟩ : i < 2 ^ cfg.indexbits ∧ hitTokens cfg i = ts ∧ c' = c := by simpa [encodeCached] using henc
    obtain ⟨hholds, rfl⟩ := hM.hit _ _ _ _ hlookup
    have htokens : hitTokens cfg i = (refBits cfg.refEn ++ [false, false]).map .cmd ++ [.idx i] := by
      simp [hitTokens, refTokens_eq]
    rw [htokens, decodeNode_feed _ hhit (by rw [toDec_ctx]; rfl), symbolEffect, decodeHit]
    refine (readIdx_feed cfg.indexbits hi _).trans ?_
    simp [hholds, keyOf, DecState.painted, ← Canvas.writeRaw_raw _ _ cfg.bgra, RunCfg.toDec]
  case inserted =>
    obtain ⟨rfl, rfl⟩ : missTokens cfg (keyOf cfg.bgra P fr p).bytes = ts ∧ c' = c := by simpa [encodeCached] using henc
    obtain ⟨-, rfl⟩ := hM.inserted _ _ _ hlookup
    have htokens : missTokens cfg (raw cfg.bgra P fr p) =
        (refBits cfg.refEn ++ [false, true]).map .cmd ++ pixTokens (raw cfg.bgra P fr p) := by
      simp [missTokens, refTokens_eq]
    rw [keyOf, htokens, decodeNode_feed _ hmiss (by rw [toDec_ctx]; rfl), symbolEffect, decodeMiss,
      readBytes_feed _ (raw_length ..)]
    simp [DecState.painted, ← Canvas.writeRaw_raw _ _ cfg.bgra, RunCfg.toDec]
  case error => simp [encodeCached] at henc

/-! ### Subtrees and passes -/

variable (M cfg P Q)

/-- Decoding what a subtree of a pass gave paints its region and leaves the encoder's cache state; `n` bounds its depth. -/
def DecodesSubtrees (p : Pass) (n : Nat) : Prop :=
  ∀ (fr : Frame) (st : DecState C) (ts : List Token) (c : C), fr.Ok cfg →
    encodeNode M cfg P Q p n fr st.cache = some (ts, c) →
    decodeNode M cfg.toDec (cfg.decRef Q) p n fr (st.feed cfg.indexbits ts) = .ok (st.painted P [(fr, p)] c)

variable {M cfg P Q}

theorem DecodesSubtrees.list (hn : DecodesSubtrees M cfg P Q p n) {frs : List Frame} (hok : ∀ f ∈ frs, f.Ok cfg)
    {st : DecState C} {ts : List Token} {c : C}
    (henc : encodeList (encodeNode M cfg P Q p n) frs st.cache = some (ts, c)) :
    decodeList (decodeNode M cfg.toDec (cfg.decRef Q) p n) frs (st.feed cfg.indexbits ts) =
      .ok (st.painted P (frs.map fun f => (f, p)) c) := by
  induction frs generalizing st ts with
  | nil =>
    obtain ⟨rfl, rfl⟩ : [] = ts ∧ st.cache = c := by simpa [encodeList] using henc
    rfl
  | cons fr frs ih =>
    obtain ⟨hfr, hfrs⟩ := List.forall_mem_cons.1 hok
    obtain ⟨us, c1, vs, hfirst, hrest, rfl⟩ := encodeList_cons_eq_some.1 henc
    rw [DecState.feed_append, decodeList, hn fr (st.feed cfg.indexbits vs) us c1 hfr hfirst, DecResult.andThen,
      DecState.painted_feed, ih hfrs (st := st.painted P [(fr, p)] c1) hrest, DecState.painted_painted]
    rfl

theorem decodesSubtrees (hM : M.Contract) (hmin : 1 ≤ cfg.M) (p : Pass) (n : Nat) : DecodesSubtrees M cfg P Q p n := by
  induction n with
  | zero =>
    intro fr st ts c _ henc
    simp [encodeNode] at henc
  | succ n ih =>
    intro fr st ts c hfr henc
    by_cases hcached : classify cfg P Q fr p = .cached
    · rw [encodeNode_succ_cached hcached] at henc
      exact decodeNode_of_encodeCached hM hcached henc
    · rw [encodeNode_succ rfl hcached, withHead_eq_some] at henc
      obtain ⟨us, hus, rfl⟩ := henc
      obtain ⟨i, hi⟩ : ∃ i, (classify cfg P Q fr p).symbol = some i :=
        Option.ne_none_iff_exists'.1 fun h => hcached (NodeClass.eq_cached_of_symbol_eq_none h)
      rw [decodeNode_of_class hi]
      cases hsplit : (classify cfg P Q fr p).isSplit with
      | false =>
        rw [NodeClass.children_of_not_isSplit hsplit] at hus
        obtain ⟨rfl, rfl⟩ : [] = us ∧ st.cache = c := by simpa [encodeList] using hus
        rw [List.append_nil]
        exact symbolEffect_of_leaf rfl hi hsplit
      | true =>
        have hnonflat := classifyNonFlat_of_isSplit (P := P) (Q := Q) (p := p) rfl hsplit
        have hrule : SplitRule cfg.M fr _ := (splits_of_classifyNonFlat hnonflat hsplit).2
        rw [symbolEffect_of_split hi hsplit, ih.list (fun f hf => hfr.children hmin (fun _ => hnonflat) hf) hus,
          DecState.painted, Canvas.paint_partition _ P (partition_children hmin hfr.xs hfr.ys hrule)]
        rfl

theorem decodePasses_of_encodePasses (hM : M.Contract) (hmin : 1 ≤ cfg.M) (hroot : (rootFrame cfg.W cfg.H).Ok cfg)
    {ps : List Pass} {ts : List Token} {c : C} (henc : encodePasses M cfg P Q ps st.cache = some (ts, c)) :
    decodePasses M cfg.toDec (cfg.decRef Q) ps (st.feed cfg.indexbits ts) =
      .ok (st.painted P (ps.map fun p => (rootFrame cfg.W cfg.H, p)) c) := by
  induction ps generalizing st ts with
  | nil =>
    obtain ⟨rfl, rfl⟩ : [] = ts ∧ st.cache = c := by simpa [encodePasses] using henc
    rfl
  | cons p ps ih =>
    obtain ⟨us, c1, vs, hfirst, hrest, rfl⟩ := encodePasses_cons_eq_some.1 henc
    have hnode : decodeNode M cfg.toDec (cfg.decRef Q) p (cfg.toDec.maxdepth + 1) (rootFrame cfg.toDec.W cfg.toDec.H)
        ((st.feed cfg.indexbits vs).feed cfg.indexbits us) = .ok _ :=
      decodesSubtrees hM hmin p _ _ _ us c1 hroot hfirst
    rw [DecState.feed_append, decodePasses, hnode, DecResult.andThen, DecState.painted_feed,
      ih (st := st.painted P _ c1) hrest, DecState.painted_painted]
    rfl

end

/-- Every byte but `a` is on the mask of some pass of a run (R150, R171). -/
theorem exists_pass_of_ne_a (colordiff : BitVec 2) {c : Channel} (hc : c ≠ .a) :
    ∃ p ∈ passList colordiff, c ∈ maskOf p := by
  unfold passList
  split
  · cases c with
    | y => exact ⟨.luma, by decide, by decide⟩
    | x | z => exact ⟨.chroma, by decide, by decide⟩
    | a => exact absurd rfl hc
  · cases c with
    | x | y | z => exact ⟨.full, by decide, by decide⟩
    | a => exact absurd rfl hc

/-- Settles O54: each node is decoded from its own tokens to the image's bytes in its region, and the passes cover the image. -/
theorem decodeOfEncodeReturnsTheImage : Obligations.DecodeOfEncodeReturnsTheImage := by
  unfold Obligations.DecodeOfEncodeReturnsTheImage
  intro C M b cfg P Q c0 c1 ts hM hcheck henc
  obtain ⟨-, hmin, -⟩ := configCheck_eq_none_iff.1 hcheck
  have hdecode := decodePasses_of_encodePasses (st := ⟨[], [], [], seedCanvas cfg.toDec (cfg.decRef Q), c0⟩) hM
    (Nat.one_le_iff_ne_zero.2 hmin) (rootFrame_ok hcheck) henc
  simp only [DecState.feed, List.append_nil] at hdecode
  refine ⟨_, hdecode, rfl, rfl, rfl, rfl, fun x y c hx hy hc => ?_⟩
  obtain ⟨p, hp, hmask⟩ := exists_pass_of_ne_a cfg.colordiff hc
  exact Canvas.paint_of_mem _ P _ (List.mem_map_of_mem hp)
    (Frame.contains_iff.2 ⟨⟨Nat.zero_le x, hx⟩, Nat.zero_le y, hy⟩) hmask

end Sys2Proof.Machine
end

section
/-! PROOF. The configuration check answers the first fault in code order whose cause holds (R280, R282). -/

namespace Sys2Proof.Machine

/-- The run faults by rising code, the order of the table of R280. -/
def RunFault.inCodeOrder : List RunFault :=
  [.cfgArea, .cfgMinsize, .cfgMindim, .cfgColordiff, .cfgIndexbits, .cfgDepth, .cfgAddr, .mem, .cache]

theorem RunFault.mem_inCodeOrder (f : RunFault) : f ∈ RunFault.inCodeOrder := by cases f <;> decide

theorem RunFault.inCodeOrder_pairwise : RunFault.inCodeOrder.Pairwise (·.code < ·.code) := by decide

theorem RunFault.code_injective : Function.Injective RunFault.code := by
  intro f g h
  revert h
  cases f <;> cases g <;> decide

/-- The cause of E_CFG_ADDR in the terms of the check (R282, R290). -/
theorem configFails_cfgAddr_iff {b : Build} {c : RunCfg} :
    ConfigFails b c .cfgAddr ↔ addrOk b c c.imgBase = false ∨ (c.refEn = true ∧ addrOk b c c.refBase = false) := by
  have haddr (base : Nat) : base % 4 ≠ 0 ∨ 2 ^ b.addrW < base + 4 * c.W * c.H ↔ addrOk b c base = false := by
    rw [← Bool.not_eq_true, addrOk_iff]
    omega
  simp only [ConfigFails, haddr, or_and_right, exists_or, exists_eq_left, and_assoc, exists_and_left]

open Classical in
/-- The check runs down the table of R280 to the first cause that holds. -/
theorem configCheck_eq_find? (b : Build) (c : RunCfg) :
    configCheck b c = RunFault.inCodeOrder.find? (fun f => ConfigFails b c f) := by
  have hfirst (f : RunFault) (fs : List RunFault) :
      (f :: fs).find? (fun f => ConfigFails b c f) =
        if ConfigFails b c f then some f else fs.find? (fun f => ConfigFails b c f) := by
    split <;> simp_all
  have hmem : ¬ConfigFails b c .mem := id
  have hcache : ¬ConfigFails b c .cache := id
  simp only [RunFault.inCodeOrder, hfirst, if_neg hmem, if_neg hcache, configFails_cfgAddr_iff, List.find?_nil]
  -- the two sides differ only in how their conditions are decided
  unfold configCheck
  congr!

/-- What the check reports has a cause that holds, and no cause of a lower code does. -/
theorem configFails_of_configCheck_eq_some {b : Build} {c : RunCfg} {f : RunFault} (h : configCheck b c = some f) :
    ConfigFails b c f ∧ ∀ g : RunFault, g.code < f.code → ¬ConfigFails b c g := by
  classical
  rw [configCheck_eq_find?, List.find?_eq_some_iff_append] at h
  obtain ⟨hcause, before, after, hsplit, hbefore⟩ := h
  refine ⟨of_decide_eq_true hcause, fun g hless => ?_⟩
  obtain ⟨-, hafter, -⟩ := List.pairwise_append.1 (hsplit ▸ RunFault.inCodeOrder_pairwise)
  rw [List.pairwise_cons] at hafter
  have hg : g ∈ before ++ f :: after := hsplit ▸ g.mem_inCodeOrder
  rw [List.mem_append, List.mem_cons] at hg
  rcases hg with hg | rfl | hg
  · simpa using hbefore g hg
  · exact absurd hless (BitVec.lt_irrefl _)
  · exact absurd hless (BitVec.lt_asymm (hafter.1 g hg))

/-- The check reports nothing exactly when no cause holds. -/
theorem configCheck_eq_none_iff_not_configFails {b : Build} {c : RunCfg} :
    configCheck b c = none ↔ ∀ f : RunFault, ¬ConfigFails b c f := by
  classical
  rw [configCheck_eq_find?, List.find?_eq_none]
  exact ⟨fun h f => by simpa using h f f.mem_inCodeOrder, fun h f _ => by simpa using h f⟩

/-- Settles O17: two faults that each have the lowest code whose cause holds have one code, so they are the same. -/
theorem configCheckReportsTheLowestCode : Obligations.ConfigCheckReportsTheLowestCode := by
  unfold Obligations.ConfigCheckReportsTheLowestCode
  refine fun b c => ⟨fun f => ⟨configFails_of_configCheck_eq_some, fun ⟨hcause, hlowest⟩ => ?_⟩,
    configCheck_eq_none_iff_not_configFails⟩
  cases hcheck : configCheck b c with
  | none => exact absurd hcause (configCheck_eq_none_iff_not_configFails.1 hcheck f)
  | some g =>
    obtain ⟨hg, hgLowest⟩ := configFails_of_configCheck_eq_some hcheck
    have hcode : g.code = f.code :=
      BitVec.le_antisymm (BitVec.not_lt.1 fun hless => hgLowest f hless hcause)
        (BitVec.not_lt.1 fun hless => hlowest g hless hg)
    rw [RunFault.code_injective hcode]

end Sys2Proof.Machine
end

section
/-! PROOF. An idle block with no input waiting (R306, R322). -/

namespace Sys2Proof.Machine

/-- Settles O22: the block's own step leaves an idle block as it is, and reset leaves no input and an idle block. -/
theorem idleTakesNoStep : Obligations.IdleTakesNoStep := by
  unfold Obligations.IdleTakesNoStep
  have hidle (s : State) (hsched : s.schedule = []) (hphase : s.phase = .idle) : step s = .next s := by
    rw [step_of_schedule_nil hsched, ownStep_idle hphase]
  exact ⟨hidle, hidle State.reset rfl rfl⟩

end Sys2Proof.Machine
end

section
/-! PROOF. Illegal host accesses (R21, R333). -/

namespace Sys2Proof.Machine

/-- Settles O11: no register stands at an unaligned offset, so `exec` refuses the access there; an access of another width
reaches no instruction, and its event refuses it. -/
theorem illegalAccessIsRefused : Obligations.IllegalAccessIsRefused := by
  unfold Obligations.IllegalAccessIsRefused
  refine ⟨fun s off v hunaligned => ?_, fun s rest hwrite => ?_, fun s rest hread => ?_⟩
  · have hat : regAt off = none := regAt_of_unaligned hunaligned
    exact ⟨exec_regwr_unaligned hat v s, exec_regrd_unaligned hat v s⟩
  · exact step_of_schedule_cons hwrite
  · exact step_of_schedule_cons hread

end Sys2Proof.Machine
end
